-- ==== Sys2Proof/Word.lean ====
section
/-! DEFINITION. The bit-vector widths of the machine (00_scope.md section 5: a value of width N is `uN`). -/

namespace Sys2Proof

/-- `u8`: a byte of SRC, of BLK and of OUT. -/
abbrev Byte := BitVec 8

/-- `u16`: a half-float bit pattern, an element of S or B (R78). -/
abbrev Half := BitVec 16

/-- `u32`: a host-visible register (R11), an element of W (R77). -/
abbrev Word := BitVec 32

/-- `u64`: the block counters NBLK and BIDX (R22). -/
abbrev Count := BitVec 64

end Sys2Proof
end

