-- ==== Sys2Proof/Config.lean ====
section
/-! DEFINITION. What an implementation of QBD fixes (R5, R6) and the one value the spec leaves open. -/

namespace Sys2Proof.Config

/-- R5: codes per block, "fixed for all three". -/
def blockCodes : Nat := 32

/-- R6, R80: the QTYPE code of Q4_0. -/
def qtQ40 : Word := 2

/-- R6, R80: the QTYPE code of Q4_1. -/
def qtQ41 : Word := 3

/-- R6, R80: the QTYPE code of Q8_0. -/
def qtQ80 : Word := 8

/-- R6: `AW`, the width of a SRC byte offset. -/
def addressBits : Nat := 64

/-- R6: `LIT_RESET`. -/
def litReset : Bool := false

/-- R6, R232: `ATOMIC_INSERT`. -/
def atomicInsert : Bool := false

/-- What a byte of storage that nothing has written reads as. A freshly allocated container has such bytes, and so has a
SRC that a BIND gives a fresh buffer; a job decodes those of SRC. DESIGN CHOICE, unsafe (notes/assumptions/4.md). -/
def unlistedByte : Byte := 0

/-- R127, D11: the free choice behind `nan_bias(h, k)`: a sign, and a fraction less one. Nothing constrains it, and the
pairs are in one-to-one correspondence with the 2046 NaN patterns (notes/assumptions/2.md). -/
opaque nanDraw : Half → Nat → Bool × Fin 1023

end Sys2Proof.Config
end

