-- ==== Sys2Proof/Machine/State.lean ====
section
/-! DEFINITION. The state of QBD (10_state.md R10), of the host beside it (46_host_assembler.md), and the reasons a
step can stop. Plain data throughout. -/

namespace Sys2Proof.Machine

/-- R20: the sequencer's six states. -/
inductive Fsm where
  | idle
  | check
  | fetch
  | header
  | codes
  | store
deriving DecidableEq, Repr

/-- R21: KIND, which extractor; the three schemes of R1. -/
inductive Kind where
  | q4_0
  | q4_1
  | q8_0
deriving DecidableEq, Repr

/-- R40: the four memory spaces. -/
inductive SpaceId where
  | src
  | w
  | s
  | b
deriving DecidableEq, Repr

/-- Bytes by address: strictly rising addresses, and no entry equal to what an unlisted address reads as
(`Memory.wf`). -/
abbrev Memory := List Host.Cell

/-- R43: a space as the host has bound it: the bytes below `extent` exist, in the byte view of R47 and R48
(notes/assumptions/14.md). -/
structure Space where
  extent : Nat
  cells : Memory
deriving DecidableEq, Repr

/-- R225: the element types of the containers. -/
inductive Elem where
  | u32
  | f16
deriving DecidableEq, Repr

/-- A tensor name or a key of the name map, as its characters. -/
abbrev Key := List Char

/-- N19: an entry of a name map: shape, element type, contents. -/
structure Tensor where
  shape : List Nat
  elem : Elem
  storage : Space
deriving DecidableEq, Repr

/-- R228: a NamedTensorMap: its entries in the order of their insertion. -/
abbrev NameMap := List (Key × Tensor)

/-- R235: what a caller passes to CONVERT for the map that it means (notes/assumptions/24.md). -/
abbrev MapHandle := Nat

/-- R221, R226: one input tensor of CONVERT, with the host's choice of LIT and the TAG that stands for the name. -/
structure TensorView where
  name : Key
  quantType : Word
  shape : List Nat
  rawBytes : List Byte
  lit : Bool
  tag : Word
deriving DecidableEq, Repr

/-- R43, R225: what a BIND binds: a buffer with given bytes, or a freshly allocated container of so many bytes. -/
inductive Buffer where
  | bytes (contents : List Byte)
  | fresh (size : Nat)
deriving DecidableEq, Repr

/-- R231: which of the three insertions is next. -/
inductive InsertStage where
  | weights
  | scales
  | biases
deriving DecidableEq, Repr

/-- The host's actions (R11, R85, R86, R220). -/
inductive HostOp where
  /-- `WR`: a 32-bit RegWrite at a byte offset of the register block (R11). -/
  | regWrite (offset : Nat) (v : Word)
  /-- `RD`: a 32-bit RegRead (R11). -/
  | regRead (offset : Nat)
  /-- A register access that is not 32 bits wide (R30, U9). -/
  | narrowAccess (offset bytes : Nat)
  /-- `BIND`: bind a space to storage (R43). -/
  | bind (space : SpaceId) (buffer : Buffer)
  /-- Read element `index` of a space (R33). -/
  | readElem (space : SpaceId) (index : Nat)
  /-- Write element `index` of a space; a value is truncated to the element's width (R33). -/
  | writeElem (space : SpaceId) (index : Nat) (v : Word)
  /-- A `DEC` line with any tag value; `lit` is the FLAGS write of the Q4_1 lines (R86). -/
  | dec (quantType : Word) (lit : Option Bool) (tag outer lastdim : Word)
  /-- `WAIT`: poll STATUS until BUSY reads 0 (R86). -/
  | wait
  /-- CONVERT(map, t), lines 1 to 5 (R220, R235). -/
  | convert (map : MapHandle) (t : TensorView)
  /-- R227: poll until BUSY = 0, then report an error or go on to INSERT. -/
  | collect (map : MapHandle) (t : TensorView)
  /-- INSERT into a map, the stages of R231, with the shapes of R223 and R224. -/
  | insert (map : MapHandle) (name : Key) (weightShape scaleShape : List Nat) (stage : InsertStage)
deriving DecidableEq, Repr

/-- Who moves in a step: the host, the engine, or the platform's reset (R193, R280). -/
inductive Turn where
  | host
  | engine
  /-- A reset between two steps (R280). -/
  | reset
  /-- A reset inside the engine's STORE step, after so many of its writes (R51, R281); outside STORE a plain reset. -/
  | resetInStore (writes : Nat)
deriving DecidableEq, Repr

/-- What a read of the host returned. -/
inductive HostRead where
  | reg (offset : Nat) (v : Word)
  | elem (space : SpaceId) (index : Nat) (v : Word)
deriving DecidableEq, Repr

/-- R268: the error record, as the host reads it while ERR = 1. -/
structure ErrorRecord where
  errcode : BitVec 4
  qtype : Word
  lit : Bool
  lastdim : Word
  outer : Word
  tag : Word
deriving DecidableEq, Repr

/-- R234: the host's error reports. -/
inductive Report where
  /-- The host's own shape check failed (R222). -/
  | incompatibleShape (name : Key) (shape : List Nat)
  /-- The host's own type check failed (R222). -/
  | unsupportedType (name : Key)
  /-- The engine recorded an error; `tensor` is the name and shape the TAG stands for, if the host issued it. -/
  | engineError (record : ErrorRecord) (tensor : Option (Key × List Nat))
  /-- R231: an insertion of tensor `name` found `key` present. -/
  | duplicateKey (key name : Key)
deriving DecidableEq, Repr

/-- The state of the machine. -/
structure State where
  /-- QTYPE (R15). -/
  qtype : Word
  /-- FLAGS.LIT (R16); FLAGS[31:1] are hardwired 0 and hold nothing. -/
  lit : Bool
  /-- LASTDIM (R17). -/
  lastdim : Word
  /-- OUTER (R18). -/
  outer : Word
  /-- TAG (R19). -/
  tag : Word
  /-- STATUS.DONE (R13). -/
  done : Bool
  /-- STATUS.ERR (R13). -/
  err : Bool
  /-- ERRCODE[3:0] (R14). -/
  errcode : BitVec 4
  /-- FSM (R20). -/
  fsm : Fsm
  /-- KIND (R21). -/
  kind : Kind
  /-- LITL (R21). -/
  litl : Bool
  /-- BS (R21). -/
  bs : BitVec 6
  /-- COFF (R21). -/
  coff : BitVec 3
  /-- OB (R21). -/
  ob : BitVec 6
  /-- WPBK (R21). -/
  wpbk : BitVec 4
  /-- NBLK (R22). -/
  nblk : Count
  /-- BIDX (R22). -/
  bidx : Count
  /-- BLK[0..33] (R23). -/
  blk : Vector Byte 34
  /-- SCALE (R24). -/
  scale : Half
  /-- BIAS (R25). -/
  bias : Half
  /-- OUT[0..31] (R26). -/
  out : Vector Byte 32
  /-- SRC (R40). -/
  srcSpace : Space
  /-- W (R40). -/
  wSpace : Space
  /-- S (R40). -/
  sSpace : Space
  /-- B (R40). -/
  bSpace : Space
  /-- The NamedTensorMaps (R228), each under the handle a caller passes for it (R235). -/
  maps : List (MapHandle × NameMap)
  /-- The model's: FLAGS has been written since the last job's CHECK, and so for the next job (R283, P4; notes/assumptions/23.md). -/
  flagsChosen : Bool
  /-- The model's: the host's pending actions, next first. -/
  prog : List HostOp
  /-- The model's: the turns fixed in advance, next first; with none the fair policy picks (R193). -/
  sched : List Turn
  /-- The model's: what the host's reads returned, oldest first. -/
  reads : List HostRead
  /-- The model's: the host's error reports, oldest first. -/
  reports : List Report
  /-- The model's: the tensor each TAG the host issued stands for, newest first (R226). -/
  issued : List (Word × Key × List Nat)
deriving DecidableEq, Repr

/-- Why the model stops with a fault. -/
inductive Fault where
  /-- FETCH with BS above 34, or STORE with WPBK above 8: BLK or OUT would be indexed out of range (R200: "in range by
  the latch table"). Raised by `stepFetch` and `stepStore` in states no run reaches. Safe. -/
  | latchRange
deriving DecidableEq, Repr

/-- Why the model gives a step no meaning. -/
inductive Refusal where
  /-- An instruction with no meaning yet: raised by an arm of `exec`. Safe. -/
  | notModelled (mnemonic : String)
  /-- R60, R283 (P1, P2), U5: a job needs bytes of this space that the host has not bound, or a host access names an
  element that is not bound. Raised by `stepCheck`, `stepFetch`, `stepStore` and the host's element accesses. Safe. -/
  | unbound (space : SpaceId)
  /-- R283 (P4): a Q4_1 job whose FLAGS nobody wrote for it. Raised by `stepCheck`. Safe. -/
  | flagsNotChosen
  /-- R30, U9: a register access that is not 4-byte aligned. Raised by the host's register accesses. Safe. -/
  | misalignedRegister (offset : Nat)
  /-- R30, U9: a register access that is not 32 bits wide. Raised by `HostOp.narrowAccess`. Safe. -/
  | registerWidth (offset bytes : Nat)
  /-- U9: an offset of 0x20 or above is not QBD's. Raised by the host's register accesses. Safe. -/
  | outsideBlock (offset : Nat)
  /-- R285, U10: a host access to a space, or a re-binding, while BUSY = 1. Raised by the host's space actions. Safe. -/
  | spaceWhileBusy (space : SpaceId)
  /-- R6, R60: a SRC buffer of more than 2^AW bytes has offsets that AW bits cannot hold. Raised by BIND. Safe. -/
  | bufferTooLarge (size : Nat)
  /-- R233, U1: the tensor's name does not end in ".weight". Raised by CONVERT and INSERT. Safe. -/
  | noWeightSuffix (name : Key)
  /-- R221, U7: the tensor has no dimensions. Raised by CONVERT. Safe. -/
  | emptyShape (name : Key)
  /-- R226, U8: a dimension or the product of the others does not fit 32 bits. Raised by CONVERT. Safe. -/
  | dimensionTooWide (name : Key)
  /-- C2: the output shapes of a type that is none of the three do not exist; raised by a `collect` that no CONVERT
  issued. Safe. -/
  | noOutputShape (name : Key)
deriving DecidableEq, Repr

/-- A space to which nothing is bound. -/
def Space.unboundSpace : Space := { extent := 0, cells := [] }

/-- R31: the machine right after reset. The working registers, which R31 leaves unspecified, hold the values named in
notes/assumptions/1.md (DESIGN CHOICE); the spaces are not QBD's (R282) and nothing is bound to them yet. -/
def State.reset : State where
  qtype := 0
  lit := Config.litReset
  lastdim := 0
  outer := 0
  tag := 0
  done := false
  err := false
  errcode := 0
  fsm := .idle
  kind := .q4_0
  litl := false
  bs := 0
  coff := 0
  ob := 0
  wpbk := 0
  nblk := 0
  bidx := 0
  blk := Vector.replicate 34 0
  scale := 0
  bias := 0
  out := Vector.replicate 32 0
  srcSpace := Space.unboundSpace
  wSpace := Space.unboundSpace
  sSpace := Space.unboundSpace
  bSpace := Space.unboundSpace
  maps := []
  flagsChosen := false
  prog := []
  sched := []
  reads := []
  reports := []
  issued := []

end Sys2Proof.Machine
end

