-- ==== Sys2Proof/Machine/Flags.lean ====
section
/-! DEFINITION. The status flags and the words the host reads them as (10_state.md R12 to R16, R29). -/

namespace Sys2Proof.Machine

/-- R13: STATUS.BUSY, "the predicate FSM ≠ IDLE". -/
def State.busy (s : State) : Bool := s.fsm != .idle

/-- R29: the descriptor registers are locked while BUSY = 1 or ERR = 1. -/
def State.locked (s : State) : Bool := s.busy || s.err

/-- One flag as bit `n` of a register. -/
def flagBit (b : Bool) (n : Nat) : Word := if b then 1#32 <<< n else 0

/-- R13: what a read of STATUS returns. -/
def State.statusWord (s : State) : Word := flagBit s.busy 0 ||| flagBit s.done 1 ||| flagBit s.err 2

/-- R14: what a read of ERRCODE returns. -/
def State.errcodeWord (s : State) : Word := s.errcode.zeroExtend 32

/-- R16: what a read of FLAGS returns. -/
def State.flagsWord (s : State) : Word := flagBit s.lit 0

/-- R79: the job descriptor, the five registers as they stand. -/
def State.descriptor (s : State) : List Word := [s.qtype, s.flagsWord, s.lastdim, s.outer, s.tag]

end Sys2Proof.Machine
end

