-- ==== Sys2Proof/Machine/Ops.lean ====
section
/-! DEFINITION. Memory, the spaces, the job latch, taking an error and returning from it, reset. -/

namespace Sys2Proof.Machine

/-- The byte at an address: the listed one, or what an unlisted address reads as. -/
def Memory.peek : Memory → Nat → Byte
  | [], _ => Config.unlistedByte
  | (k, v) :: m, a => if k = a then v else Memory.peek m a

/-- A byte put in front of cells whose addresses are higher; the unlisted value needs no cell. -/
def Memory.put (a : Nat) (v : Byte) (m : Memory) : Memory := if v = Config.unlistedByte then m else (a, v) :: m

/-- Write one byte, keeping the canonical form. -/
def Memory.poke : Memory → Nat → Byte → Memory
  | [], a, v => Memory.put a v []
  | (k, x) :: m, a, v =>
    if a < k then Memory.put a v ((k, x) :: m)
    else if a = k then Memory.put a v m
    else (k, x) :: Memory.poke m a v

/-- Addresses rise strictly from at least `lo`, and no entry equals what an unlisted address reads as. -/
def Memory.wfFrom : Nat → Memory → Bool
  | _, [] => true
  | lo, (k, v) :: m => decide (lo ≤ k) && v != Config.unlistedByte && Memory.wfFrom (k + 1) m

/-- The canonical form. -/
def Memory.wf (m : Memory) : Bool := Memory.wfFrom 0 m

/-- Write consecutive bytes from an address up. -/
def Memory.pokeList : Memory → Nat → List Byte → Memory
  | m, _, [] => m
  | m, a, b :: bs => Memory.pokeList (Memory.poke m a b) (a + 1) bs

/-- The bytes of a 16-bit element, the low byte at the lower address (R48). -/
def halfBytes (h : Half) : List Byte := [h.extractLsb' 0 8, h.extractLsb' 8 8]

/-- The bytes of a 32-bit element: byte `m` of the view is bits `8m+7 : 8m` (R47). -/
def wordBytes (v : Word) : List Byte :=
  [v.extractLsb' 0 8, v.extractLsb' 8 8, v.extractLsb' 16 8, v.extractLsb' 24 8]

/-- The canonical space of a space: the form of its memory, and no cell outside its extent. -/
def Space.wf (sp : Space) : Bool := Memory.wf sp.cells && sp.cells.all (fun c => decide (c.1 < sp.extent))

/-- The byte of a space at an address, whether or not it is bound. -/
def Space.peek (sp : Space) (a : Nat) : Byte := Memory.peek sp.cells a

/-- R44 with n = 1: one byte; `none` where nothing is bound (R60). -/
def Space.readByte (sp : Space) (a : Nat) : Option Byte := if a < sp.extent then some (sp.peek a) else none

/-- R44: `MemRead(SRC, off, n)`, the bytes from `off` up as one little-endian number. -/
def memRead (sp : Space) (off : Nat) : Nat → Option Nat
  | 0 => some 0
  | n + 1 => do
    let low ← sp.readByte off
    let high ← memRead sp (off + 1) n
    return low.toNat + 256 * high

/-- Write the bytes of one element from byte address `a` up. -/
def Space.pokeBytes (sp : Space) (a : Nat) (bytes : List Byte) : Space :=
  { sp with cells := Memory.pokeList sp.cells a bytes }

/-- R45: `MemWrite(S, i, 2, v)` and `MemWrite(B, i, 2, v)` on a bound element. -/
def Space.pokeHalf (sp : Space) (i : Nat) (v : Half) : Space := sp.pokeBytes (2 * i) (halfBytes v)

/-- R45: `MemWrite(W, i, 4, v)` on a bound element. -/
def Space.pokeWord (sp : Space) (i : Nat) (v : Word) : Space := sp.pokeBytes (4 * i) (wordBytes v)

/-- Element `i` of a space of 16-bit elements (R48). -/
def Space.halfAt (sp : Space) (i : Nat) : Half := sp.peek (2 * i + 1) ++ sp.peek (2 * i)

/-- Element `i` of a space of 32-bit elements (R47). -/
def Space.wordAt (sp : Space) (i : Nat) : Word :=
  sp.peek (4 * i + 3) ++ sp.peek (4 * i + 2) ++ sp.peek (4 * i + 1) ++ sp.peek (4 * i)

/-- The elements below `n`, of `width` bytes each, are bound. -/
def Space.holds (sp : Space) (width n : Nat) : Bool := decide (width * n ≤ sp.extent)

/-- A space bound to a buffer with given bytes, offset 0 first (R40, R43). -/
def Space.ofBytes (contents : List Byte) : Space :=
  { extent := contents.length, cells := Memory.pokeList [] 0 contents }

/-- R225: a freshly allocated container of so many bytes. -/
def Space.fresh (size : Nat) : Space := { extent := size, cells := [] }

/-- R43: the space a BIND makes of a buffer. -/
def Buffer.toSpace : Buffer → Space
  | .bytes contents => Space.ofBytes contents
  | .fresh size => Space.fresh size

/-- The size of a buffer in bytes. -/
def Buffer.size : Buffer → Nat
  | .bytes contents => contents.length
  | .fresh size => size

/-- The space of an identifier. -/
def State.space (s : State) : SpaceId → Space
  | .src => s.srcSpace
  | .w => s.wSpace
  | .s => s.sSpace
  | .b => s.bSpace

/-- Replace one space. -/
def State.setSpace (s : State) (id : SpaceId) (sp : Space) : State :=
  match id with
  | .src => { s with srcSpace := sp }
  | .w => { s with wSpace := sp }
  | .s => { s with sSpace := sp }
  | .b => { s with bSpace := sp }

/-- R40: the element width of a space in bytes. -/
def elemBytes : SpaceId → Nat
  | .src => 1
  | .w => 4
  | .s => 2
  | .b => 2

/-- The six values of the job latch (R21). -/
structure Latch where
  kind : Kind
  litl : Bool
  bs : BitVec 6
  coff : BitVec 3
  ob : BitVec 6
  wpbk : BitVec 4
deriving DecidableEq, Repr

/-- R184, row QTYPE = 2 (R140: "Job latch"). -/
def latchQ40 : Latch := { kind := .q4_0, litl := false, bs := 18, coff := 2, ob := 16, wpbk := 4 }

/-- R184, row QTYPE = 3, lit = 0 (R150). -/
def latchQ41 : Latch := { kind := .q4_1, litl := false, bs := 20, coff := 4, ob := 16, wpbk := 4 }

/-- R184, row QTYPE = 3, lit = 1 (R151). -/
def latchQ41L : Latch := { kind := .q4_1, litl := true, bs := 20, coff := 2, ob := 16, wpbk := 4 }

/-- R184, row QTYPE = 8 (R165). -/
def latchQ80 : Latch := { kind := .q8_0, litl := false, bs := 34, coff := 2, ob := 32, wpbk := 8 }

/-- R184: the table `latch(QTYPE, lit)`; there is no row for any other QTYPE. -/
def latchOf (qtype : Word) (lit : Bool) : Option Latch :=
  if qtype = Config.qtQ40 then some latchQ40
  else if qtype = Config.qtQ41 then some (if lit then latchQ41L else latchQ41)
  else if qtype = Config.qtQ80 then some latchQ80
  else none

/-- The job latch as the state holds it. -/
def State.latch (s : State) : Latch :=
  { kind := s.kind, litl := s.litl, bs := s.bs, coff := s.coff, ob := s.ob, wpbk := s.wpbk }

/-- Write the job latch. -/
def State.setLatch (s : State) (l : Latch) : State :=
  { s with kind := l.kind, litl := l.litl, bs := l.bs, coff := l.coff, ob := l.ob, wpbk := l.wpbk }

/-- R185: `NBLK = OUTER * (LASTDIM div 32)`, which 64 bits hold (R22). -/
def blockCount (lastdim outer : Word) : Nat := outer.toNat * (lastdim.toNat / Config.blockCodes)

/-- The two errors of the engine (R250, R251). -/
inductive EngineError where
  | incompatibleShape
  | unsupportedType
deriving DecidableEq, Repr

/-- R14, R250, R251: the cause codes. -/
def EngineError.code : EngineError → BitVec 4
  | .incompatibleShape => 1
  | .unsupportedType => 2

/-- TAKING AN ERROR, `raise E` (R256): "What the entry changes is exactly ERRCODE, ERR and FSM." -/
def State.raise (s : State) (e : EngineError) : State := { s with errcode := e.code, err := true, fsm := .idle }

/-- RETURNING FROM AN ERROR, the effect of an ACK that is not ignored (R258). -/
def State.acknowledge (s : State) : State := { s with done := false, err := false, errcode := 0 }

/-- R280, R282: the reset event. Registers take their reset values (the working registers those of
notes/assumptions/1.md); the spaces, their bindings, the name maps and the rest of the host stay. -/
def State.resetEvent (s : State) : State :=
  { State.reset with
    srcSpace := s.srcSpace, wSpace := s.wSpace, sSpace := s.sSpace, bSpace := s.bSpace
    maps := s.maps, prog := s.prog, sched := s.sched, reads := s.reads, reports := s.reports, issued := s.issued }

end Sys2Proof.Machine
end

