-- ==== Sys2Proof/Machine/Operands.lean ====
section
/-! DEFINITION. The operand forms: the 16-bit fields of a block (R74, R120), its code window (R105), and the block's
address (R41). -/

namespace Sys2Proof.Machine

/-- R74, R120: `FLD16(p) = BLK[p] | (BLK[p+1] << 8)`. -/
def fld16 (blk : Vector Byte 34) (p : Fin 33) : Half :=
  (blk[p.val]).zeroExtend 16 ||| ((blk[p.val + 1]).zeroExtend 16 <<< 8)

/-- R105: the sixteen bytes the unpacker is fed, `s[j] = BLK[COFF + j]`. -/
def codeWindow (blk : Vector Byte 34) (coff : BitVec 3) : Vector Byte 16 :=
  Vector.ofFn fun j => blk[coff.toNat + j.val]'(by have := coff.isLt; have := j.isLt; omega)

/-- R186: the SRC offset of the current block, `BIDX * BS`, a natural number (R22). -/
def State.blockBase (s : State) : Nat := s.bidx.toNat * s.bs.toNat

/-- R189: the index of the current block's first W element, `BIDX * WPBK`. -/
def State.wordBase (s : State) : Nat := s.bidx.toNat * s.wpbk.toNat

end Sys2Proof.Machine
end

