-- ==== Sys2Proof/Machine/Unpack.lean ====
section
/-! DEFINITION. The nibble unpacker and the interleaver (40_nibble_unpacker.md). -/

namespace Sys2Proof.Machine

/-- The odd/even rule of R101: a nibble moves to the high half of its byte when `j` is odd. -/
def nibbleAt (x : Byte) (j : Nat) : Byte := if j % 2 = 1 then x <<< 4 else x

/-- R101, step 2 for one `j`: combine the low nibble of `s[j]` into `o[j div 2]`. -/
def orLowNibble (s o : Vector Byte 16) (j : Fin 16) : Vector Byte 16 :=
  o.set (j.val / 2) (o[j.val / 2] ||| nibbleAt (s[j.val] &&& 0x0F) j.val)

/-- R101, step 3 for one `j`: combine the high nibble of `s[j]` into `o[8 + j div 2]`. -/
def orHighNibble (s o : Vector Byte 16) (j : Fin 16) : Vector Byte 16 :=
  o.set (8 + j.val / 2) (o[8 + j.val / 2] ||| nibbleAt (s[j.val] >>> 4) j.val)

/-- R101: NUNPACK, step for step: zero-fill, low nibbles, high nibbles of the same bytes. -/
def nunpack (s : Vector Byte 16) : Vector Byte 16 :=
  let zeroed : Vector Byte 16 := Vector.replicate 16 0
  let lows := (List.finRange 16).foldl (orLowNibble s) zeroed
  (List.finRange 16).foldl (orHighNibble s) lows

/-- Nibble `k` of dense bytes: byte `k div 2`, low half for even `k` (R103). -/
def denseNibble (o : Vector Byte 16) (k : Fin 32) : Byte := (o[k.val / 2] >>> (4 * (k.val % 2))) &&& 0x0F

/-- R75: logical code `k` of the sixteen wire bytes: a low nibble for k ≤ 15, a high nibble above. -/
def wireCode (s : Vector Byte 16) (k : Fin 32) : Byte :=
  if h : k.val < 16 then s[k.val] &&& 0x0F else s[k.val - 16] >>> 4

/-- R106: NPACK, the inverse of NUNPACK; no job invokes it. -/
def npack (o : Vector Byte 16) : Vector Byte 16 :=
  Vector.ofFn fun j =>
    denseNibble o ⟨j.val, by omega⟩ ||| (denseNibble o ⟨16 + j.val, by omega⟩ <<< 4)

end Sys2Proof.Machine
end

