-- ==== Sys2Proof/Machine/Repack.lean ====
section
/-! DEFINITION. The repack engine: BIASGEN, FLIP8, REPACK32 (41_field_extract_repack.md). FLD16 is in Operands. -/

namespace Sys2Proof.Machine

/-- R123: a half-float from its fields. -/
def halfOf (sign : BitVec 1) (exp : BitVec 5) (frac : BitVec 10) : Half := sign ++ exp ++ frac

/-- R123: the sign field. -/
def halfSign (h : Half) : BitVec 1 := h.extractLsb' 15 1

/-- R123: the exponent field. -/
def halfExp (h : Half) : BitVec 5 := h.extractLsb' 10 5

/-- R123: the fraction field. -/
def halfFrac (h : Half) : BitVec 10 := h.extractLsb' 0 10

/-- R123: a NaN has exponent 31 and a fraction other than 0. -/
def isNaN (h : Half) : Bool := halfExp h == 31 && halfFrac h != 0

/-- R127: `nan_bias(h, k)`: some NaN; which one nothing says (notes/assumptions/2.md). -/
def nanBias (h : Half) (k : Nat) : Half :=
  halfOf (BitVec.ofBool (Config.nanDraw h k).1) 31 (BitVec.ofNat 10 ((Config.nanDraw h k).2.val + 1))

/-- R126: `HALF_OVF`, the infinity of the product's sign. -/
def halfOverflow (sign : BitVec 1) : Half := halfOf sign 31 0

/-- R124, the subnormal case with a fraction other than 0: `m = frac << k`, normalised where it reaches 1024. -/
def biasSubnormal (ns : BitVec 1) (m : Nat) : Half :=
  if m < 1024 then halfOf ns 0 (BitVec.ofNat 10 m)
  else halfOf ns (BitVec.ofNat 5 (Nat.log2 m - 9)) (BitVec.ofNat 10 (m >>> (Nat.log2 m - 10)))

/-- R124: BIASGEN(h, k), the bit pattern of the half-float nearest to `-(2^k) * value(h)`; k is 3 or 7. -/
def biasgen (h : Half) (k : Nat) : Half :=
  let ns := halfSign h ^^^ 1
  if halfExp h = 31 then
    if halfFrac h = 0 then halfOf ns 31 0 else nanBias h k
  else if halfExp h = 0 then
    if halfFrac h = 0 then halfOf ns 0 0 else biasSubnormal ns ((halfFrac h).toNat <<< k)
  else if 31 ≤ (halfExp h).toNat + k then halfOverflow ns
  else halfOf ns (BitVec.ofNat 5 ((halfExp h).toNat + k)) (halfFrac h)

/-- R128: FLIP8(b) = `b ^ 0x80`. -/
def flip8 (b : Byte) : Byte := b ^^^ 0x80

/-- R130: REPACK32(k), four staging bytes as a word, lowest byte in the low bits. -/
def repack32 (out : Vector Byte 32) (k : Fin 8) : Word :=
  (out[4 * k.val]).zeroExtend 32 ||| ((out[4 * k.val + 1]).zeroExtend 32 <<< 8)
    ||| ((out[4 * k.val + 2]).zeroExtend 32 <<< 16) ||| ((out[4 * k.val + 3]).zeroExtend 32 <<< 24)

/-- R123: the value of a finite half-float in units of 2^-24, which make every finite value an integer. -/
def halfUnits (h : Half) : Int :=
  let magnitude : Nat :=
    if halfExp h = 0 then (halfFrac h).toNat else (1024 + (halfFrac h).toNat) * 2 ^ ((halfExp h).toNat - 1)
  if halfSign h = 1 then -(magnitude : Int) else magnitude

/-- R131: the dequantization formula `code * scale + bias`, in units of 2^-24, for finite scale and bias. -/
def dequantUnits (code : Nat) (scale bias : Half) : Int := code * halfUnits scale + halfUnits bias

end Sys2Proof.Machine
end

