-- ==== Sys2Proof/Machine/Sequencer.lean ====
section
/-! DEFINITION. The job sequencer's steps (45_job_sequencer.md R180 to R190), shared by the four DEC operations. -/

namespace Sys2Proof.Machine

/-- What a step of the machine answers. -/
abbrev StepResult := Host.Outcome State Fault Refusal

/-- R60, R283 (P1, P2): the first space in which a job of `n` blocks would reach an element the host has not bound.
DESIGN CHOICE: only what is too short is missing. A buffer or a container that is longer than the job runs, and the job never
reaches what is beyond it (R60; U5 reads both ways; notes/assumptions/26.md). -/
def missingSpace (s : State) (l : Latch) (n : Nat) : Option SpaceId :=
  if ¬ s.srcSpace.holds 1 (n * l.bs.toNat) then some .src
  else if ¬ s.wSpace.holds 4 (n * l.wpbk.toNat) then some .w
  else if ¬ s.sSpace.holds 2 n then some .s
  else if ¬ s.bSpace.holds 2 n then some .b
  else none

/-- R283: the launch premise that fails, of those a job with latch row `l` and `n` blocks can be held to: its storage
(P1, P2), and for a Q4_1 job a FLAGS write of its own (P4; notes/assumptions/23.md). -/
def launchProblem (s : State) (l : Latch) (n : Nat) : Option Refusal :=
  match missingSpace s l n with
  | some sp => some (.unbound sp)
  | none => if l.kind = .q4_1 ∧ s.flagsChosen = false then some .flagsNotChosen else none

/-- R283, P4: a FLAGS write is made for one job, whether that job ends with DONE or with ERR; in CHECK the job takes it, so
that no later job inherits it (R291; notes/assumptions/23.md). -/
def State.takeFlagsWrite (s : State) : State := { s with flagsChosen := false }

/-- R183, the set-up of CHECK: the latch, NBLK and BIDX. -/
def State.setUpJob (s : State) (l : Latch) (n : Nat) : State :=
  { (s.setLatch l).takeFlagsWrite with nblk := BitVec.ofNat 64 n, bidx := 0 }

/-- R183, R256: CHECK ends the job with an error. -/
def State.rejectJob (s : State) (e : EngineError) : State := s.takeFlagsWrite.raise e

/-- R17, R183: the shape check, `LASTDIM mod 32 = 0`. -/
def shapeOk (lastdim : Word) : Bool := lastdim.toNat % Config.blockCodes == 0

/-- R183: the CHECK step of a job whose type is supported, with the latch row of that type. A zero-block job is done
(R192); a job whose launch premises fail is refused (R60, R283). -/
def stepCheck (l : Latch) (lastdim outer : Word) (s : State) : StepResult :=
  if shapeOk lastdim then
    let n := blockCount lastdim outer
    let t := s.setUpJob l n
    if n = 0 then .next { t with done := true, fsm := .idle }
    else
      match launchProblem s l n with
      | some r => .refused r
      | none => .next { t with fsm := .fetch }
  else .next (s.rejectJob .incompatibleShape)

/-- R183, R255: the CHECK step of a descriptor whose type is not supported: the shape is tested first. -/
def rejectDescriptor (s : State) : State :=
  if shapeOk s.lastdim then s.rejectJob .unsupportedType else s.rejectJob .incompatibleShape

/-- R186: BLK after FETCH: bytes below BS come from SRC, the others keep old values (R23). -/
def fetchBlock (src : Space) (base bs : Nat) (old : Vector Byte 34) : Vector Byte 34 :=
  Vector.ofFn fun i => if i.val < bs then src.peek (base + i.val) else old[i.val]

/-- R186: the FETCH step. -/
def stepFetch (s : State) : StepResult :=
  if 34 < s.bs.toNat then .fault .latchRange
  else if s.srcSpace.holds 1 (s.blockBase + s.bs.toNat) then
    .next { s with blk := fetchBlock s.srcSpace s.blockBase s.bs.toNat s.blk, fsm := .header }
  else .refused (.unbound .src)

/-- R187, KIND = Q4_0 (k = 3) or Q8_0 (k = 7): the HEADER step with a bias derived from the scale. -/
def headerImplicit (k : Nat) (s : State) : State :=
  { s with scale := fld16 s.blk 0, bias := biasgen (fld16 s.blk 0) k, fsm := .codes }

/-- R187, KIND = Q4_1: the HEADER step with the bias the block stores. -/
def headerExplicit (s : State) : State := { s with scale := fld16 s.blk 0, bias := fld16 s.blk 2, fsm := .codes }

/-- R188, KIND = Q4_0 or Q4_1: OUT[0..15] from the unpacker; OUT[16..31] keep old values. -/
def outLowBit (s : State) : Vector Byte 32 :=
  Vector.ofFn fun i => if h : i.val < 16 then (nunpack (codeWindow s.blk s.coff))[i.val] else s.out[i.val]

/-- R188, KIND = Q8_0: every OUT byte is a code byte with its top bit flipped. -/
def outByte (s : State) : Vector Byte 32 := Vector.ofFn fun i => flip8 (s.blk[2 + i.val])

/-- R188: the CODES step of the low-bit schemes. -/
def codesLowBit (s : State) : State := { s with out := outLowBit s, fsm := .store }

/-- R188: the CODES step of the byte scheme. -/
def codesByte (s : State) : State := { s with out := outByte s, fsm := .store }

/-- R189: the W writes of STORE, words 0 to WPBK - 1 in ascending index. -/
def storeWords (sp : Space) (base wpbk : Nat) (out : Vector Byte 32) : Space :=
  (List.finRange 8).foldl (fun sp k => if k.val < wpbk then sp.pokeWord (base + k.val) (repack32 out k) else sp) sp

/-- R51, R189: the memory after the first `k` writes of STORE, in the order scale, bias, words ascending. Each write is
whole; together they are not atomic. -/
def State.storePrefix (s : State) (k : Nat) : State :=
  { s with
    sSpace := if 1 ≤ k then s.sSpace.pokeHalf s.bidx.toNat s.scale else s.sSpace
    bSpace := if 2 ≤ k then s.bSpace.pokeHalf s.bidx.toNat s.bias else s.bSpace
    wSpace := storeWords s.wSpace s.wordBase (min s.wpbk.toNat (k - 2)) s.out }

/-- R189: the memory and BIDX after STORE: all of its `2 + WPBK` writes. -/
def State.storeBlock (s : State) : State := { s.storePrefix (2 + s.wpbk.toNat) with bidx := s.bidx + 1 }

/-- R189: what STORE does to FSM and DONE; "the comparison uses the incremented BIDX". -/
def State.endBlock (s : State) : State :=
  if s.bidx = s.nblk then { s with done := true, fsm := .idle } else { s with fsm := .fetch }

/-- R189: the STORE step. -/
def stepStore (s : State) : StepResult :=
  if 8 < s.wpbk.toNat then .fault .latchRange
  else if ¬ s.sSpace.holds 2 (s.bidx.toNat + 1) then .refused (.unbound .s)
  else if ¬ s.bSpace.holds 2 (s.bidx.toNat + 1) then .refused (.unbound .b)
  else if ¬ s.wSpace.holds 4 (s.wordBase + s.wpbk.toNat) then .refused (.unbound .w)
  else .next s.storeBlock.endBlock

/-- R281: a reset that falls inside the STORE step, after its first `k` writes. Where STORE itself has no meaning, neither
has its part. -/
def cutStore (k : Nat) (s : State) : StepResult :=
  match stepStore s with
  | .next _ => .next (s.storePrefix k).resetEvent
  | .fault r => .fault r
  | .refused r => .refused r

/-- R180: the one engine step that FSM enables, of an operation with its latch row and its HEADER and CODES steps. In
IDLE no engine step is enabled and nothing changes (notes/assumptions/7.md). -/
def runJobStep (l : Latch) (header codes : State → State) (lastdim outer : Word) (s : State) : StepResult :=
  match s.fsm with
  | .idle => .next s
  | .check => stepCheck l lastdim outer s
  | .fetch => stepFetch s
  | .header => .next (header s)
  | .codes => .next (codes s)
  | .store => stepStore s

end Sys2Proof.Machine
end

