-- ==== Sys2Proof/Machine/HostPort.lean ====
section
/-! DEFINITION. The host's side of QBD: the register block (10_state.md R11 to R19, R29, R30), binding and accessing the
spaces (20_memory.md R33, R43, R56), and the DEC lines of the host notation (R86). -/

namespace Sys2Proof.Machine

/-- R11: the offset of CTRL. -/
def ctrlOffset : Nat := 0x00

/-- R11: the offset of STATUS. -/
def statusOffset : Nat := 0x04

/-- R11: the offset of ERRCODE. -/
def errcodeOffset : Nat := 0x08

/-- R11: the offset of QTYPE. -/
def qtypeOffset : Nat := 0x0C

/-- R11: the offset of FLAGS. -/
def flagsOffset : Nat := 0x10

/-- R11: the offset of LASTDIM. -/
def lastdimOffset : Nat := 0x14

/-- R11: the offset of OUTER. -/
def outerOffset : Nat := 0x18

/-- R11: the offset of TAG. -/
def tagOffset : Nat := 0x1C

/-- The first byte offset after the register block. -/
def blockEnd : Nat := 0x20

/-- R30, U9: why a 32-bit register access at an offset has no meaning. -/
def registerProblem (offset : Nat) : Option Refusal :=
  if offset % 4 ≠ 0 then some (.misalignedRegister offset)
  else if blockEnd ≤ offset then some (.outsideBlock offset)
  else none

/-- R11: RegRead: the word a register reads as; CTRL reads 0 (R12). A read has no side effect (R30). -/
def State.regLoad (s : State) (offset : Nat) : Word :=
  if offset = statusOffset then s.statusWord
  else if offset = errcodeOffset then s.errcodeWord
  else if offset = qtypeOffset then s.qtype
  else if offset = flagsOffset then s.flagsWord
  else if offset = lastdimOffset then s.lastdim
  else if offset = outerOffset then s.outer
  else if offset = tagOffset then s.tag
  else 0

/-- R29: RegWrite to a register other than CTRL: the five descriptor registers while unlocked; STATUS and ERRCODE
ignore writes (R13, R14). A write to FLAGS is also the deliberate choice of R283, P4 (notes/assumptions/23.md). -/
def State.regStore (s : State) (offset : Nat) (v : Word) : State :=
  if s.locked then s
  else if offset = qtypeOffset then { s with qtype := v }
  else if offset = flagsOffset then { s with lit := v.getLsbD 0, flagsChosen := true }
  else if offset = lastdimOffset then { s with lastdim := v }
  else if offset = outerOffset then { s with outer := v }
  else if offset = tagOffset then { s with tag := v }
  else s

/-- R11: a RegRead; the value joins what the host has read. -/
def hostRegRead (offset : Nat) (s : State) : StepResult :=
  match registerProblem offset with
  | some r => .refused r
  | none => .next { s with reads := s.reads ++ [.reg offset (s.regLoad offset)] }

/-- R43: a BIND, between jobs only (R40); the space becomes the buffer (notes/assumptions/16.md). Any of the four spaces may
be bound to a fresh buffer, SRC among them; DESIGN CHOICE, unsafe: FETCH then reads each SRC byte that nothing has written as
`Config.unlistedByte`, and the job decodes it (notes/assumptions/4.md). DESIGN CHOICE: it is refused while BUSY only; one made
while ERR = 1 takes effect and counts for the next launch (R40, R283; notes/assumptions/27.md). -/
def hostBind (id : SpaceId) (buffer : Buffer) (s : State) : StepResult :=
  if s.busy then .refused (.spaceWhileBusy id)
  else if id = .src ∧ 2 ^ Config.addressBits < buffer.size then .refused (.bufferTooLarge buffer.size)
  else .next (s.setSpace id buffer.toSpace)

/-- The value of element `i` of a space, as a word (R40, R47, R48). -/
def State.elemAt (s : State) (id : SpaceId) (i : Nat) : Word :=
  match id with
  | .src => (s.srcSpace.peek i).zeroExtend 32
  | .w => s.wSpace.wordAt i
  | .s => (s.sSpace.halfAt i).zeroExtend 32
  | .b => (s.bSpace.halfAt i).zeroExtend 32

/-- The spaces after the host writes element `i` (R33, R45). -/
def State.pokeElem (s : State) (id : SpaceId) (i : Nat) (v : Word) : State :=
  match id with
  | .src => { s with srcSpace := s.srcSpace.pokeBytes i [v.extractLsb' 0 8] }
  | .w => { s with wSpace := s.wSpace.pokeWord i v }
  | .s => { s with sSpace := s.sSpace.pokeHalf i (v.extractLsb' 0 16) }
  | .b => { s with bSpace := s.bSpace.pokeHalf i (v.extractLsb' 0 16) }

/-- R33, R285: the host reads an element of a space, when the engine is not busy. -/
def hostReadElem (id : SpaceId) (i : Nat) (s : State) : StepResult :=
  if s.busy then .refused (.spaceWhileBusy id)
  else if (s.space id).holds (elemBytes id) (i + 1) then
    .next { s with reads := s.reads ++ [.elem id i (s.elemAt id i)] }
  else .refused (.unbound id)

/-- R33, R285: the host writes an element of a space, when the engine is not busy. DESIGN CHOICE: while ERR = 1 too
(notes/assumptions/27.md). -/
def hostWriteElem (id : SpaceId) (i : Nat) (v : Word) (s : State) : StepResult :=
  if s.busy then .refused (.spaceWhileBusy id)
  else if (s.space id).holds (elemBytes id) (i + 1) then .next (s.pokeElem id i v)
  else .refused (.unbound id)

/-- R12: the value a START is written as. -/
def startValue : Word := 1

/-- R84: the value an ACK is written as. -/
def ackValue : Word := 2

/-- R86: the register writes a DEC line stands for; FLAGS is written only where `lit` is given. -/
def decLine (quantType : Word) (lit : Option Bool) (tag outer lastdim : Word) : List HostOp :=
  [.regWrite tagOffset tag, .regWrite outerOffset outer, .regWrite lastdimOffset lastdim]
    ++ (match lit with
        | none => []
        | some b => [.regWrite flagsOffset (flagBit b 0)])
    ++ [.regWrite qtypeOffset quantType, .regWrite ctrlOffset startValue]

end Sys2Proof.Machine
end

