-- ==== Sys2Proof/Machine/Assembler.lean ====
section
/-! DEFINITION. The host side of the Tensor Assembler: CONVERT with SHAPES, ALLOCATE, LAUNCH and INSERT
(46_host_assembler.md). -/

namespace Sys2Proof.Machine

/-- R229: the seven characters `.weight`. -/
def weightSuffix : Key := ['.', 'w', 'e', 'i', 'g', 'h', 't']

/-- R230: `.scales`. -/
def scalesSuffix : Key := ['.', 's', 'c', 'a', 'l', 'e', 's']

/-- R230: `.biases`. -/
def biasesSuffix : Key := ['.', 'b', 'i', 'a', 's', 'e', 's']

/-- R229: the name without its trailing `.weight`, removed once and only at the end; `none` without it (R233). -/
def baseName (name : Key) : Option Key :=
  if weightSuffix.isSuffixOf name then some (name.take (name.length - weightSuffix.length)) else none

/-- R5: codes per 32-bit weight word, `weights_per_byte * 4`; `none` for a type that is none of the three. -/
def codesPerWord (quantType : Word) : Option Nat :=
  if quantType = Config.qtQ40 then some 8
  else if quantType = Config.qtQ41 then some 8
  else if quantType = Config.qtQ80 then some 4
  else none

/-- The shape with its last dimension divided (R223, R224). -/
def divideLast (shape : List Nat) (d : Nat) : List Nat :=
  match shape.getLast? with
  | none => []
  | some n => shape.dropLast ++ [n / d]

/-- R223: the weight shape. -/
def weightShape (quantType : Word) (shape : List Nat) : Option (List Nat) :=
  (codesPerWord quantType).map (divideLast shape)

/-- R224: the scale and bias shape. -/
def scaleShape (shape : List Nat) : List Nat := divideLast shape Config.blockCodes

/-- R226: OUTER, "the product of all other elements of shape (1 if there are none)". -/
def outerProduct (shape : List Nat) : Nat := shape.dropLast.prod

/-- Bytes of a container of a shape (R225). -/
def containerBytes (elem : Elem) (shape : List Nat) : Nat :=
  match elem with
  | .u32 => 4 * shape.prod
  | .f16 => 2 * shape.prod

/-- R220 lines 4 and 5, R225 to R227: allocate, bind, write the descriptor, START. FLAGS is written for Q4_1 only
(R86, R226). -/
def launchOps (t : TensorView) (wshape : List Nat) (lastdim : Nat) : List HostOp :=
  [.bind .src (.bytes t.rawBytes),
   .bind .w (.fresh (containerBytes .u32 wshape)),
   .bind .s (.fresh (containerBytes .f16 (scaleShape t.shape))),
   .bind .b (.fresh (containerBytes .f16 (scaleShape t.shape)))]
    ++ decLine t.quantType (if t.quantType = Config.qtQ41 then some t.lit else none) t.tag
        (BitVec.ofNat 32 (outerProduct t.shape)) (BitVec.ofNat 32 lastdim)

/-- R220, lines 1 to 5. Line 1 checks the shape and then the type before anything is allocated (R222). A failed check
is reported and CONVERT goes no further (R237). -/
def hostConvert (map : MapHandle) (t : TensorView) (s : State) : StepResult :=
  match baseName t.name, t.shape.getLast? with
  | none, _ => .refused (.noWeightSuffix t.name)
  | some _, none => .refused (.emptyShape t.name)
  | some _, some lastdim =>
    if lastdim % Config.blockCodes ≠ 0 then
      .next { s with reports := s.reports ++ [.incompatibleShape t.name t.shape] }
    else
      match weightShape t.quantType t.shape with
      | none => .next { s with reports := s.reports ++ [.unsupportedType t.name] }
      | some wshape =>
        if 2 ^ 32 ≤ lastdim ∨ 2 ^ 32 ≤ outerProduct t.shape then .refused (.dimensionTooWide t.name)
        else
          .next { s with
            issued := (t.tag, t.name, t.shape) :: s.issued
            prog := launchOps t wshape lastdim ++ (.collect map t :: s.prog) }

/-- R268: the error record. -/
def State.errorRecord (s : State) : ErrorRecord :=
  { errcode := s.errcode, qtype := s.qtype, lit := s.lit, lastdim := s.lastdim, outer := s.outer, tag := s.tag }

/-- R226, R234: the name and shape a TAG stands for. -/
def State.tensorOf (s : State) (tag : Word) : Option (Key × List Nat) := (s.issued.find? (·.1 == tag)).map (·.2)

/-- R227, with BUSY = 0: on ERR report and acknowledge, inserting nothing; on DONE go on to INSERT; with neither a reset
abandoned the job, and the host reruns it from the start (R281). DESIGN CHOICE (notes/assumptions/25.md): the last STATUS
read, the reads of ERRCODE and of the five registers and the report are this one host step, so that no reset falls between
them, and they are not appended to `reads`. -/
def hostCollect (map : MapHandle) (t : TensorView) (s : State) : StepResult :=
  if s.err then
    .next { s with
      reports := s.reports ++ [.engineError s.errorRecord (s.tensorOf s.tag)]
      prog := .regWrite ctrlOffset ackValue :: s.prog }
  else if s.done then
    match weightShape t.quantType t.shape with
    | none => .refused (.noOutputShape t.name)
    | some wshape => .next { s with prog := .insert map t.name wshape (scaleShape t.shape) .weights :: s.prog }
  else .next { s with prog := .convert map t :: s.prog }

/-- R235: the map a handle stands for; a handle nothing has been inserted under stands for an empty map. -/
def lookupMap : List (MapHandle × NameMap) → MapHandle → NameMap
  | [], _ => []
  | (k, m) :: rest, h => if k = h then m else lookupMap rest h

/-- Replace the map of a handle, and no other. -/
def setMap : List (MapHandle × NameMap) → MapHandle → NameMap → List (MapHandle × NameMap)
  | [], h, m' => [(h, m')]
  | (k, m) :: rest, h, m' => if k = h then (k, m') :: rest else (k, m) :: setMap rest h m'

/-- R231: `insert(map, key, v)`: `none` if the key is present; nothing is ever overwritten. -/
def insertKey (map : NameMap) (key : Key) (v : Tensor) : Option NameMap :=
  if key ∈ map.map (·.1) then none else some (map ++ [(key, v)])

/-- R231: insert entries in order; the first colliding key with the map as far as it got, or the whole. -/
def insertAll (map : NameMap) : List (Key × Tensor) → NameMap × Option Key
  | [] => (map, none)
  | (key, v) :: rest =>
    match insertKey map key v with
    | none => (map, some key)
    | some map' => insertAll map' rest

/-- R231, R232: the insertions of one conversion: literal (earlier insertions stay) or staged (all or none). -/
def insertEntries (atomic : Bool) (map : NameMap) (entries : List (Key × Tensor)) : NameMap × Option Key :=
  match insertAll map entries with
  | (map', none) => (map', none)
  | (map', some key) => (if atomic then map else map', some key)

/-- R228, R230: the entry of one stage: its key and its container. -/
def State.entryOf (s : State) (name base : Key) (wshape sshape : List Nat) : InsertStage → Key × Tensor
  | .weights => (name, { shape := wshape, elem := .u32, storage := s.wSpace })
  | .scales => (base ++ scalesSuffix, { shape := sshape, elem := .f16, storage := s.sSpace })
  | .biases => (base ++ biasesSuffix, { shape := sshape, elem := .f16, storage := s.bSpace })

/-- R231: the stages done in one host step, from a stage on: that stage alone, or with ATOMIC_INSERT all of them. -/
def stageBatch (atomic : Bool) : InsertStage → List InsertStage
  | .weights => if atomic then [.weights, .scales, .biases] else [.weights]
  | .scales => if atomic then [.scales, .biases] else [.scales]
  | .biases => [.biases]

/-- R231: the stage after the ones just done; none after the biases. -/
def nextStage (atomic : Bool) : InsertStage → Option InsertStage
  | .weights => if atomic then none else some .scales
  | .scales => if atomic then none else some .biases
  | .biases => none

/-- R228 to R232: one step of INSERT into the map that CONVERT was given (R235). A collision is reported with the key and
ends the conversion (R234, R237). The containers are read, so the engine must not be busy (R56). -/
def hostInsert (map : MapHandle) (name : Key) (wshape sshape : List Nat) (stage : InsertStage) (s : State) : StepResult :=
  if s.busy then .refused (.spaceWhileBusy .w)
  else
    match baseName name with
    | none => .refused (.noWeightSuffix name)
    | some base =>
      let entries := (stageBatch Config.atomicInsert stage).map (s.entryOf name base wshape sshape)
      match insertEntries Config.atomicInsert (lookupMap s.maps map) entries with
      | (m, some key) => .next { s with maps := setMap s.maps map m, reports := s.reports ++ [.duplicateKey key name] }
      | (m, none) =>
        match nextStage Config.atomicInsert stage with
        | none => .next { s with maps := setMap s.maps map m }
        | some stage' =>
          .next { s with maps := setMap s.maps map m, prog := .insert map name wshape sshape stage' :: s.prog }

end Sys2Proof.Machine
end

