-- ==== Sys2Proof/Syntax.lean ====
section
/-! DEFINITION. The six operations of spec/opcode_table.json (R79, R80, R84), one constructor per row. -/

namespace Sys2Proof

/-- An operation of QBD. The four `dec…` rows are job descriptors (format JD, R79): their operands are the descriptor's
other words. `start` and `ack` are values written to CTRL (format CMD, R84). -/
inductive Instr where
  /-- DEC.Q4_0 (R140): the FLAGS word (LIT is ignored), LASTDIM, OUTER, TAG. -/
  | decQ40 (flags lastdim outer tag : Word)
  /-- DEC.Q4_1 (R150): FLAGS.LIT = 0. -/
  | decQ41 (lastdim outer tag : Word)
  /-- DEC.Q4_1L (R151): FLAGS.LIT = 1. -/
  | decQ41L (lastdim outer tag : Word)
  /-- DEC.Q8_0 (R165): the FLAGS word (LIT is ignored), LASTDIM, OUTER, TAG. -/
  | decQ80 (flags lastdim outer tag : Word)
  /-- START (R181): CTRL bit 0 = 1. `ackFirst` is CTRL bit 1; `reserved` is CTRL[31:2], ignored. -/
  | start (ackFirst : Bool) (reserved : BitVec 30)
  /-- ACK (R258): CTRL bit 1 = 1 and bit 0 = 0; `reserved` is CTRL[31:2], ignored. -/
  | ack (reserved : BitVec 30)
deriving DecidableEq, Repr

/-- The two instruction formats: the job descriptor of five registers (R79), and a word written to CTRL (R84). -/
inductive Format where
  | jd
  | cmd
deriving DecidableEq, Repr

end Sys2Proof
end

