-- ==== Sys2Proof/WellFormed.lean ====
section
/-! DEFINITION. Which instructions exist: the one constraint the encodings put on operands (R79: FLAGS[31:1] "always 0
(hardwired)"). -/

namespace Sys2Proof

/-- R16, R79: the reserved bits 31:1 of a FLAGS word are hardwired 0. -/
def flagsReservedZero (flags : Word) : Bool := flags.extractLsb' 1 31 == 0

/-- An instruction a descriptor or a CTRL write can hold. -/
def Instr.wf : Instr → Bool
  | .decQ40 flags _ _ _ => flagsReservedZero flags
  | .decQ41 _ _ _ => true
  | .decQ41L _ _ _ => true
  | .decQ80 flags _ _ _ => flagsReservedZero flags
  | .start _ _ => true
  | .ack _ => true

end Sys2Proof
end

