-- ==== Sys2Proof/Decode.lean ====
section
/-! DEFINITION. Decoding a job descriptor (R79 to R82) and a CTRL write (R12, R84), and the encoder. -/

namespace Sys2Proof

/-- Why words are no instruction. -/
inductive DecodeError where
  /-- R82: QT is none of 2, 3, 8. -/
  | unsupportedType (qtype : Word)
  /-- R12: neither command bit of a CTRL word is 1. -/
  | noCommand (v : Word)
  /-- R79, R84: a descriptor has five words and a command has one. -/
  | wrongLength (f : Format) (words : Nat)
deriving DecidableEq, Repr

/-- R16: what the FLAGS register keeps of a word written to it: bit 0; bits 31:1 are hardwired 0. -/
def flagsKept (v : Word) : Word := v &&& 1

/-- R80: the operation a descriptor selects. All 32 bits of QT are compared; FLAGS bit 0 is read only when QT = 3. -/
def decodeDescriptor (qtype flags lastdim outer tag : Word) : Except DecodeError Instr :=
  if qtype = Config.qtQ40 then .ok (.decQ40 (flagsKept flags) lastdim outer tag)
  else if qtype = Config.qtQ41 then
    if flags.getLsbD 0 then .ok (.decQ41L lastdim outer tag) else .ok (.decQ41 lastdim outer tag)
  else if qtype = Config.qtQ80 then .ok (.decQ80 (flagsKept flags) lastdim outer tag)
  else .error (.unsupportedType qtype)

/-- R12, R84: the command a word written to CTRL carries. With both bits 1 it is a START that acknowledges first. -/
def decodeCommand (v : Word) : Except DecodeError Instr :=
  if v.getLsbD 0 then .ok (.start (v.getLsbD 1) (v.extractLsb' 2 30))
  else if v.getLsbD 1 then .ok (.ack (v.extractLsb' 2 30))
  else .error (.noCommand v)

/-- The decoder, total on any words. -/
def decode (f : Format) (words : List Word) : Except DecodeError Instr :=
  match f, words with
  | .jd, [qtype, flags, lastdim, outer, tag] => decodeDescriptor qtype flags lastdim outer tag
  | .cmd, [v] => decodeCommand v
  | f, ws => .error (.wrongLength f ws.length)

/-- The format an instruction is written in (opcode_table.json, "format"). -/
def Instr.format : Instr → Format
  | .decQ40 _ _ _ _ => .jd
  | .decQ41 _ _ _ => .jd
  | .decQ41L _ _ _ => .jd
  | .decQ80 _ _ _ _ => .jd
  | .start _ _ => .cmd
  | .ack _ => .cmd

/-- The words of an instruction, word 0 first (R79, R80, R84). -/
def encode : Instr → List Word
  | .decQ40 flags lastdim outer tag => [Config.qtQ40, flags, lastdim, outer, tag]
  | .decQ41 lastdim outer tag => [Config.qtQ41, 0, lastdim, outer, tag]
  | .decQ41L lastdim outer tag => [Config.qtQ41, 1, lastdim, outer, tag]
  | .decQ80 flags lastdim outer tag => [Config.qtQ80, flags, lastdim, outer, tag]
  | .start ackFirst reserved => [reserved ++ BitVec.ofBool ackFirst ++ 1#1]
  | .ack reserved => [reserved ++ 1#1 ++ 0#1]

/-- Word `k` of a number whose 32-bit words count up from bit 0, with the bits from `nbits` on taken as 0. -/
def tableWord (nbits w k : Nat) : Word := BitVec.ofNat 32 ((w % 2 ^ nbits) / 2 ^ (32 * k))

/-- Which format a row of the opcode table with `nbits` bits is. The table matches a CMD row over the 32-bit written
value and a JD row over the 64-bit FLAGS, QTYPE pair (R80); a 32-bit value with neither command bit set is no CMD row
and is read as a descriptor of which only QTYPE is given (notes/assumptions/12.md). -/
def tableFormat (nbits w : Nat) : Format :=
  if 32 < nbits then .jd
  else if nbits = 32 && !((tableWord nbits w 0).getLsbD 0 || (tableWord nbits w 0).getLsbD 1) then .jd
  else .cmd

/-- The words of an instruction numbered as opcode_table.json numbers its bits. -/
def tableWords (nbits w : Nat) : List Word :=
  match tableFormat nbits w with
  | .jd => [tableWord nbits w 0, tableWord nbits w 1, tableWord nbits w 2, tableWord nbits w 3, tableWord nbits w 4]
  | .cmd => [tableWord nbits w 0]

/-- The instruction the decoder reads from a table row's bits. -/
def decodeTableWord (nbits w : Nat) : Option Instr :=
  match decode (tableFormat nbits w) (tableWords nbits w) with
  | .ok i => some i
  | .error _ => none

end Sys2Proof
end

