-- ==== Sys2Proof/Machine/ByteAffine.lean ====
section
/-! DEFINITION. The byte-affine extractor (44_extract_q8_0.md). -/

namespace Sys2Proof.Machine

/-- R165: DEC.Q8_0. FLAGS.LIT is ignored and TAG is not interpreted. -/
def execDecQ80 (_flags lastdim outer _tag : Word) (s : State) : StepResult :=
  runJobStep latchQ80 (headerImplicit 7) codesByte lastdim outer s

end Sys2Proof.Machine
end

