-- ==== Sys2Proof/Machine/Command.lean ====
section
/-! DEFINITION. The commands written to CTRL: START (R181) and ACK (R258). -/

namespace Sys2Proof.Machine

/-- R181, lines 4 and on: a START that is not ignored for BUSY; a recorded error must be acknowledged first. -/
def State.launch (s : State) : State := if s.err then s else { s with done := false, fsm := .check }

/-- R181: START; with CTRL bit 1 also set, the ACK is performed first. While BUSY the whole write is ignored. -/
def execStart (ackFirst : Bool) (_reserved : BitVec 30) (s : State) : StepResult :=
  if s.busy then .next s
  else if ackFirst then .next s.acknowledge.launch
  else .next s.launch

/-- R258: ACK. While BUSY the write is ignored. -/
def execAck (_reserved : BitVec 30) (s : State) : StepResult :=
  if s.busy then .next s else .next s.acknowledge

end Sys2Proof.Machine
end

