-- ==== Sys2Proof/Machine/LowBitExplicit.lean ====
section
/-! DEFINITION. The low-bit explicit-bias extractor, with both code windows (43_extract_q4_1.md). -/

namespace Sys2Proof.Machine

/-- R150: DEC.Q4_1, the documented window: the latch row has COFF = 4. -/
def execDecQ41 (lastdim outer _tag : Word) (s : State) : StepResult :=
  runJobStep latchQ41 headerExplicit codesLowBit lastdim outer s

/-- R151: DEC.Q4_1L, the literal window: the latch row has COFF = 2. -/
def execDecQ41L (lastdim outer _tag : Word) (s : State) : StepResult :=
  runJobStep latchQ41L headerExplicit codesLowBit lastdim outer s

end Sys2Proof.Machine
end

