-- ==== Sys2Proof/Machine/LowBitImplicit.lean ====
section
/-! DEFINITION. The low-bit implicit-bias extractor (42_extract_q4_0.md). -/

namespace Sys2Proof.Machine

/-- R140: DEC.Q4_0. FLAGS.LIT is ignored and TAG is not interpreted. -/
def execDecQ40 (_flags lastdim outer _tag : Word) (s : State) : StepResult :=
  runJobStep latchQ40 (headerImplicit 3) codesLowBit lastdim outer s

end Sys2Proof.Machine
end

