-- ==== Sys2Proof/Machine/Dispatch.lean ====
section
/-! DEFINITION. One arm per operation of spec/opcode_table.json. -/

namespace Sys2Proof.Machine

def exec (i : Instr) (s : State) : Host.Outcome State Fault Refusal :=
  match i with
  | .decQ40 flags lastdim outer tag => Sys2Proof.Machine.execDecQ40 flags lastdim outer tag s
  | .decQ41 lastdim outer tag => Sys2Proof.Machine.execDecQ41 lastdim outer tag s
  | .decQ41L lastdim outer tag => Sys2Proof.Machine.execDecQ41L lastdim outer tag s
  | .decQ80 flags lastdim outer tag => Sys2Proof.Machine.execDecQ80 flags lastdim outer tag s
  | .start ackFirst reserved => Sys2Proof.Machine.execStart ackFirst reserved s
  | .ack reserved => Sys2Proof.Machine.execAck reserved s

end Sys2Proof.Machine
end

