-- ==== Sys2Proof/Machine/Turn.lean ====
section
/-! DEFINITION. What one turn of the host, of the engine and of the platform's reset does, and which turn is next. -/

namespace Sys2Proof.Machine

/-- The operation a job in its block steps is running. The latch says which (R21: after CHECK the engine does not read
QTYPE or FLAGS); its operands are the locked registers (R58), which the block steps do not read. -/
def State.running (s : State) : Instr :=
  match s.kind, s.litl with
  | .q4_0, _ => .decQ40 s.flagsWord s.lastdim s.outer s.tag
  | .q4_1, false => .decQ41 s.lastdim s.outer s.tag
  | .q4_1, true => .decQ41L s.lastdim s.outer s.tag
  | .q8_0, _ => .decQ80 s.flagsWord s.lastdim s.outer s.tag

/-- R180: the engine's step. CHECK decodes the descriptor, and one that decodes to nothing takes the error entry; the
block steps run the latched operation; in IDLE none is enabled. -/
def engineTurn (s : State) : StepResult :=
  match s.fsm with
  | .idle => .next s
  | .check =>
    match decode .jd s.descriptor with
    | .ok i => exec i s
    | .error _ => .next (rejectDescriptor s)
  | .fetch => exec s.running s
  | .header => exec s.running s
  | .codes => exec s.running s
  | .store => exec s.running s

/-- R12: a write to CTRL: a command runs; a word with neither command bit does nothing. -/
def ctrlWrite (v : Word) (s : State) : StepResult :=
  match decode .cmd [v] with
  | .ok i => exec i s
  | .error _ => .next s

/-- R11: a RegWrite. -/
def hostRegWrite (offset : Nat) (v : Word) (s : State) : StepResult :=
  match registerProblem offset with
  | some r => .refused r
  | none => if offset = ctrlOffset then ctrlWrite v s else .next (s.regStore offset v)

/-- One action of the host, already taken off `prog`. -/
def runHostOp (op : HostOp) (s : State) : StepResult :=
  match op with
  | .regWrite offset v => hostRegWrite offset v s
  | .regRead offset => hostRegRead offset s
  | .narrowAccess offset bytes => .refused (.registerWidth offset bytes)
  | .bind id buffer => hostBind id buffer s
  | .readElem id i => hostReadElem id i s
  | .writeElem id i v => hostWriteElem id i v s
  | .dec quantType lit tag outer lastdim => .next { s with prog := decLine quantType lit tag outer lastdim ++ s.prog }
  | .wait => .next s
  | .convert map t => hostConvert map t s
  | .collect map t => hostCollect map t s
  | .insert map name wshape sshape stage => hostInsert map name wshape sshape stage s

/-- R86, R227: actions that repeat a STATUS read until BUSY = 0. -/
def HostOp.polls : HostOp → Bool
  | .wait => true
  | .collect _ _ => true
  | _ => false

/-- The host's turn: its next action; a poll that reads BUSY = 1 stays to be repeated. -/
def hostTurn (s : State) : StepResult :=
  match s.prog with
  | [] => .next s
  | op :: rest => if op.polls && s.busy then .next s else runHostOp op { s with prog := rest }

/-- The host has an action that is not a poll waiting for the engine. -/
def State.hostReady (s : State) : Bool :=
  match s.prog with
  | [] => false
  | op :: _ => !(op.polls && s.busy)

/-- R280, R281: a reset that falls inside a step of the engine. STORE is the only step with writes that outlive a reset, so in
every other state it is the plain reset. -/
def resetInStep (writes : Nat) (s : State) : StepResult :=
  if s.fsm = .store then cutStore writes s else .next s.resetEvent

/-- One turn. -/
def runTurn (t : Turn) (s : State) : StepResult :=
  match t with
  | .host => hostTurn s
  | .engine => engineTurn s
  | .reset => .next s.resetEvent
  | .resetInStore writes => resetInStep writes s

/-- R193: who moves where no turn is fixed in advance: the host while it can, else the engine, so that an enabled
engine step is taken after finitely many host steps. -/
def State.fairTurn (s : State) : Turn := if s.hostReady then .host else .engine

/-- Take the turn that is next. -/
def takeTurn (s : State) : StepResult :=
  match s.sched with
  | [] => runTurn s.fairTurn s
  | t :: ts => runTurn t { s with sched := ts }

/-- Put the turn first that an instruction needs, where the fair policy would not choose it anyway. -/
def State.giveTurn (s : State) (t : Turn) : State :=
  if s.sched = [] ∧ s.fairTurn = t then s else { s with sched := t :: s.sched }

/-- R79, R181: a table row's descriptor as the five registers hold it, at the CHECK step of its job. -/
def State.placeDescriptor (s : State) (nbits w : Nat) : State :=
  { s with
    qtype := tableWord nbits w 0, lit := (tableWord nbits w 1).getLsbD 0, lastdim := tableWord nbits w 2
    outer := tableWord nbits w 3, tag := tableWord nbits w 4, flagsChosen := true, fsm := .check }

/-- A table row's bits placed where the next step takes its instruction: a descriptor in the registers, a command as the
host's next CTRL write. -/
def State.placeTableWord (s : State) (nbits w : Nat) : State :=
  match tableFormat nbits w with
  | .jd => (s.placeDescriptor nbits w).giveTurn .engine
  | .cmd => { s with prog := .regWrite ctrlOffset (tableWord nbits w 0) :: s.prog }.giveTurn .host

end Sys2Proof.Machine
end

