-- ==== Sys2Proof/Machine/Step.lean ====
section
/-! DEFINITION. One step of the machine. -/

namespace Sys2Proof.Machine

/-- One step: the turn that is next (R193). -/
def step (s : State) : Host.Outcome State Fault Refusal := takeTurn s

/-- The instruction of an opcode-table row placed where the next step runs it. -/
def State.withFetchWord (s : State) (nbits w : Nat) : State := s.placeTableWord nbits w

end Sys2Proof.Machine
end

