-- ==== Sys2Proof/Machine/Job.lean ====
section
/-! DEFINITION. A block and a job as functions of bytes (R194, R195), written apart from the sequencer's steps: the
statements compare the two. -/

namespace Sys2Proof.Machine

/-- Byte `i` of a block given as a list; a block has BS bytes, so the default is for shorter lists only. -/
def blockByte (blk : List Byte) (i : Nat) : Byte := blk.getD i 0

/-- R195: a little-endian 16-bit field at byte `p`. -/
def blockField (blk : List Byte) (p : Nat) : Half := blockByte blk (p + 1) ++ blockByte blk p

/-- R102: NUNPACK in closed form, on the sixteen bytes of a block from `p` on. -/
def blockUnpack (blk : List Byte) (p : Nat) : List Byte :=
  let s := fun j => blockByte blk (p + j)
  (List.range 8).map (fun i => (s (2 * i) &&& 0x0F) ||| ((s (2 * i + 1) &&& 0x0F) <<< 4))
    ++ (List.range 8).map (fun i => (s (2 * i) >>> 4) ||| (s (2 * i + 1) &&& 0xF0))

/-- R195: the bias of a block. -/
def blockBias : Kind → List Byte → Half
  | .q4_0, blk => biasgen (blockField blk 0) 3
  | .q4_1, blk => blockField blk 2
  | .q8_0, blk => biasgen (blockField blk 0) 7

/-- R195: the staging bytes of a block. -/
def blockOut : Kind → Bool → List Byte → List Byte
  | .q4_0, _, blk => blockUnpack blk 2
  | .q4_1, false, blk => blockUnpack blk 4
  | .q4_1, true, blk => blockUnpack blk 2
  | .q8_0, _, blk => (List.range 32).map fun i => flip8 (blockByte blk (2 + i))

/-- R195: word `k` of staging bytes. -/
def blockWord (out : List Byte) (k : Nat) : Word :=
  blockByte out (4 * k + 3) ++ blockByte out (4 * k + 2) ++ blockByte out (4 * k + 1) ++ blockByte out (4 * k)

/-- R195: `decode_block(KIND, LITL, blk) = (scale, bias, words)`. -/
def decodeBlock (kind : Kind) (litl : Bool) (blk : List Byte) : Half × Half × List Word :=
  let out := blockOut kind litl blk
  (blockField blk 0, blockBias kind blk, (List.range (out.length / 4)).map (blockWord out))

/-- R194: the bytes of block `b` of a space, `src[b*BS .. b*BS + BS - 1]`. -/
def sourceBlock (src : Space) (bs b : Nat) : List Byte := (List.range bs).map fun i => src.peek (b * bs + i)

/-- R194: block `b` of the three output spaces holds what `decode_block` gives for block `b` of SRC. -/
def BlockDecoded (l : Latch) (src : Space) (t : State) (b : Nat) : Prop :=
  let r := decodeBlock l.kind l.litl (sourceBlock src l.bs.toNat b)
  t.sSpace.halfAt b = r.1 ∧ t.bSpace.halfAt b = r.2.1 ∧
    ∀ k, k < l.wpbk.toNat → t.wSpace.wordAt (b * l.wpbk.toNat + k) = r.2.2.getD k 0

/-- R75: logical code `m` of the sixteen wire bytes that start at SRC offset `p`. -/
def lowBitCode (src : Space) (p m : Nat) : BitVec 4 :=
  if m < 16 then (src.peek (p + m)).extractLsb' 0 4 else (src.peek (p + (m - 16))).extractLsb' 4 4

/-- The raw 16-bit field at SRC offset `p` (R46). -/
def sourceField (src : Space) (p : Nat) : Half := src.peek (p + 1) ++ src.peek p

/-- Several steps of one operation. -/
def execRun (i : Instr) : Nat → State → StepResult
  | 0, s => .next s
  | k + 1, s =>
    match exec i s with
    | .next t => execRun i k t
    | .fault r => .fault r
    | .refused r => .refused r

/-- Block `b`'s storage reaches as far as the operation with latch row `l` needs (R283, P1 and P2). -/
def BlockBound (s : State) (l : Latch) (b : Nat) : Prop :=
  s.srcSpace.holds 1 ((b + 1) * l.bs.toNat) = true ∧ s.wSpace.holds 4 ((b + 1) * l.wpbk.toNat) = true ∧
    s.sSpace.holds 2 (b + 1) = true ∧ s.bSpace.holds 2 (b + 1) = true

/-- Outside block `b`'s elements every byte of W, S and B reads as before, extents included, and SRC is unchanged (R53). -/
def OnlyBlockWritten (s t : State) (l : Latch) (b : Nat) : Prop :=
  t.srcSpace = s.srcSpace ∧ t.sSpace.extent = s.sSpace.extent ∧ t.bSpace.extent = s.bSpace.extent ∧
    t.wSpace.extent = s.wSpace.extent ∧
    (∀ a, a < 2 * b ∨ 2 * b + 2 ≤ a → t.sSpace.peek a = s.sSpace.peek a) ∧
    (∀ a, a < 2 * b ∨ 2 * b + 2 ≤ a → t.bSpace.peek a = s.bSpace.peek a) ∧
    (∀ a, a < 4 * (b * l.wpbk.toNat) ∨ 4 * (b * l.wpbk.toNat + l.wpbk.toNat) ≤ a → t.wSpace.peek a = s.wSpace.peek a)

/-- Past a job's elements every byte of W, S and B reads as before, extents included, and SRC is unchanged (R53). -/
def OnlyJobWritten (s t : State) (l : Latch) (n : Nat) : Prop :=
  t.srcSpace = s.srcSpace ∧ t.sSpace.extent = s.sSpace.extent ∧ t.bSpace.extent = s.bSpace.extent ∧
    t.wSpace.extent = s.wSpace.extent ∧
    (∀ a, 2 * n ≤ a → t.sSpace.peek a = s.sSpace.peek a) ∧
    (∀ a, 2 * n ≤ a → t.bSpace.peek a = s.bSpace.peek a) ∧
    (∀ a, 4 * (n * l.wpbk.toNat) ≤ a → t.wSpace.peek a = s.wSpace.peek a)

/-- Everything but the engine's working registers agrees. -/
def SameButWorking (s t : State) : Prop :=
  ∃ kind litl bs coff ob wpbk nblk bidx blk scale bias out,
    t = { s with
      kind := kind, litl := litl, bs := bs, coff := coff, ob := ob, wpbk := wpbk, nblk := nblk, bidx := bidx
      blk := blk, scale := scale, bias := bias, out := out }

/-- The five descriptor registers agree. -/
def SameDescriptor (s t : State) : Prop :=
  t.qtype = s.qtype ∧ t.lit = s.lit ∧ t.lastdim = s.lastdim ∧ t.outer = s.outer ∧ t.tag = s.tag

end Sys2Proof.Machine
end

