-- ==== Sys2Proof/Safety.lean ====
section
/-! DEFINITION. What holds of the machine at every moment: the invariants the spec states (R13, R14, R21, R22, R60,
R228) and the canonical form of the spaces. -/

namespace Sys2Proof.Machine

/-- The job is past CHECK: FSM is FETCH, HEADER, CODES or STORE. -/
def State.inBlock (s : State) : Bool := s.busy && s.fsm != .check

/-- R13: "At most one of BUSY, DONE, ERR is 1 at any time". -/
abbrev StatusExclusive (s : State) : Prop :=
  ¬ (s.busy = true ∧ s.done = true) ∧ ¬ (s.busy = true ∧ s.err = true) ∧ ¬ (s.done = true ∧ s.err = true)

/-- R14: "ERRCODE ≠ 0 exactly when STATUS.ERR = 1", and the engine produces only the codes 1 and 2. -/
abbrev ErrcodeMatches (s : State) : Prop :=
  (s.err = true ↔ s.errcode ≠ 0) ∧ (s.errcode = 0 ∨ s.errcode = 1 ∨ s.errcode = 2)

/-- R184, R58: past CHECK the job latch is the table's row for the locked descriptor, whose shape passed. -/
abbrev LatchMatches (s : State) : Prop :=
  s.inBlock = true → latchOf s.qtype s.lit = some s.latch ∧ shapeOk s.lastdim = true

/-- R22, R185: past CHECK, NBLK is the descriptor's block count and BIDX is below it. -/
abbrev LoopBounded (s : State) : Prop :=
  s.inBlock = true → s.nblk.toNat = blockCount s.lastdim s.outer ∧ s.bidx.toNat < s.nblk.toNat

/-- R283 (P1, P2): past CHECK every element the job will reach is bound. -/
abbrev LaunchBound (s : State) : Prop := s.inBlock = true → missingSpace s s.latch s.nblk.toNat = none

/-- The four spaces are in canonical form, and a SRC offset fits AW bits (R60). -/
abbrev SpacesCanonical (s : State) : Prop :=
  s.srcSpace.wf = true ∧ s.wSpace.wf = true ∧ s.sSpace.wf = true ∧ s.bSpace.wf = true ∧
    s.srcSpace.extent ≤ 2 ^ Config.addressBits

/-- R228: "keys unique" in every map; and each handle stands for one map (R235). -/
abbrev MapKeysUnique (s : State) : Prop :=
  (s.maps.map (·.1)).Nodup ∧ ∀ p ∈ s.maps, (p.2.map (·.1)).Nodup

/-- The invariant of the whole machine. -/
abbrev StateInv (s : State) : Prop :=
  StatusExclusive s ∧ ErrcodeMatches s ∧ LatchMatches s ∧ LoopBounded s ∧ LaunchBound s ∧ SpacesCanonical s ∧
    MapKeysUnique s

/-- A safe outcome: the machine goes on, in a state that keeps the invariant. -/
def SafeOutcome (r : StepResult) : Prop := ∃ t, r = .next t ∧ StateInv t

/-- R199: "A job has ended when FSM = IDLE and exactly one of DONE, ERR is 1." -/
def JobEnded (s : State) : Prop := s.fsm = .idle ∧ (s.done != s.err) = true

end Sys2Proof.Machine
end

