-- ==== Sys2Proof/Certificates/Slice0/Obligations.lean ====
section
/-! DEFINITION. The statements for the provers. -/

open Sys2Proof Sys2Proof.Machine

/-! ## Encoding -/

/-- Decoding an encoded well-formed instruction gives it back, with every operand at every value (R79, R80, R84).
Model's own: the ignored bits of a CTRL word are kept as an operand (notes/assumptions/13.md). -/
def Obligations.DecodeEncodeRoundTrip : Prop :=
  ∀ i : Instr, i.wf = true → decode i.format (encode i) = .ok i

/-- Words that decode are the words of the instruction they decode to, but for FLAGS[31:1], which a register never
holds (R16); and what is decoded is well formed. -/
def Obligations.EncodeDecodeRoundTrip : Prop :=
  (∀ v i, decode .cmd [v] = .ok i → i.wf = true ∧ i.format = .cmd ∧ encode i = [v]) ∧
  (∀ q f l o t i, decode .jd [q, f, l, o, t] = .ok i →
    i.wf = true ∧ i.format = .jd ∧ encode i = [q, f &&& 1, l, o, t])

/-- Words written out from the tables of R80 and R84 decode to the operations they stand for. -/
def Obligations.SpecWordsDecode : Prop :=
  decode .jd [0x00000002, 0, 0x40, 1, 0x11] = .ok (.decQ40 0 0x40 1 0x11) ∧
  decode .jd [0x00000003, 0, 0x20, 2, 0x33] = .ok (.decQ41 0x20 2 0x33) ∧
  decode .jd [0x00000003, 1, 0x20, 2, 0x33] = .ok (.decQ41L 0x20 2 0x33) ∧
  decode .jd [0x00000008, 0, 0x40, 1, 0x22] = .ok (.decQ80 0 0x40 1 0x22) ∧
  decode .cmd [0x00000001] = .ok (.start false 0) ∧ decode .cmd [0x00000002] = .ok (.ack 0) ∧
  decode .cmd [0x00000003] = .ok (.start true 0)

/-- A descriptor decodes exactly when its QT is 2, 3 or 8, all 32 bits compared; LIT tells DEC.Q4_1 and DEC.Q4_1L apart
and nothing else (R80, R82). -/
def Obligations.DescriptorDecodesExactlyThreeTypes : Prop :=
  ∀ q f l o t : Word,
    ((q = 2 ∨ q = 3 ∨ q = 8) ↔ ∃ i, decodeDescriptor q f l o t = .ok i) ∧
    (q ≠ 2 → q ≠ 3 → q ≠ 8 → decodeDescriptor q f l o t = .error (.unsupportedType q)) ∧
    (q = 3 → (decodeDescriptor q f l o t = .ok (.decQ41L l o t) ↔ f.getLsbD 0 = true) ∧
      (decodeDescriptor q f l o t = .ok (.decQ41 l o t) ↔ f.getLsbD 0 = false))

/-! ## The unpacker -/

/-- R101, R102: the closed form of NUNPACK, and that the two contributions to an output byte never overlap. -/
def Obligations.NunpackClosedForm : Prop :=
  ∀ (s : Vector Byte 16) (i : Fin 8),
    (nunpack s)[i.val] = (s[2 * i.val] &&& 0x0F) ||| ((s[2 * i.val + 1] &&& 0x0F) <<< 4) ∧
    (nunpack s)[8 + i.val] = (s[2 * i.val] >>> 4) ||| (s[2 * i.val + 1] &&& 0xF0) ∧
    (s[2 * i.val] &&& 0x0F) &&& ((s[2 * i.val + 1] &&& 0x0F) <<< 4) = 0 ∧
    (s[2 * i.val] >>> 4) &&& (s[2 * i.val + 1] &&& 0xF0) = 0

/-- R103: output byte `k div 2` holds logical code `k`, in the low nibble for even `k` and the high one for odd `k`; and
the nibble at wire position (byte j, half h) moves to output byte 8h + j div 2, half j mod 2. -/
def Obligations.NunpackPlacesEveryCode : Prop :=
  ∀ s : Vector Byte 16,
    (∀ k : Fin 32,
      (k.val % 2 = 0 → (nunpack s)[k.val / 2] &&& 0x0F = wireCode s k) ∧
      (k.val % 2 = 1 → (nunpack s)[k.val / 2] >>> 4 = wireCode s k)) ∧
    (∀ (j : Fin 16) (h : Fin 2),
      (s[j.val] >>> (4 * h.val)) &&& 0x0F =
        ((nunpack s)[8 * h.val + j.val / 2] >>> (4 * (j.val % 2))) &&& 0x0F)

/-- R107: NPACK and NUNPACK undo each other, so NUNPACK is a bijection; it permutes the 32 nibbles and changes none; it
is not an involution. With the rule's two worked examples. -/
def Obligations.NpackAndNunpackAreInverse : Prop :=
  (∀ s, npack (nunpack s) = s) ∧ (∀ o, nunpack (npack o) = o) ∧ Function.Bijective nunpack ∧
  (∃ π : Equiv.Perm (Fin 32), ∀ s k, denseNibble (nunpack s) (π k) = denseNibble s k) ∧
  nunpack (nunpack #v[0x10, 0x32, 0x54, 0x76, 0x98, 0xBA, 0xDC, 0xFE, 0x01, 0x23, 0x45, 0x67, 0x89, 0xAB, 0xCD, 0xEF]) =
    #v[0x40, 0xC8, 0x51, 0xD9, 0x51, 0xD9, 0x40, 0xC8, 0x62, 0xEA, 0x73, 0xFB, 0x73, 0xFB, 0x62, 0xEA] ∧
  npack #v[0x20, 0x64, 0xA8, 0xEC, 0x31, 0x75, 0xB9, 0xFD, 0x31, 0x75, 0xB9, 0xFD, 0x20, 0x64, 0xA8, 0xEC] =
    #v[0x10, 0x32, 0x54, 0x76, 0x98, 0xBA, 0xDC, 0xFE, 0x01, 0x23, 0x45, 0x67, 0x89, 0xAB, 0xCD, 0xEF]

/-! ## The repack engine -/

/-- R122, R125: where the exact product is a finite half-float, BIASGEN gives exactly it: the value of the result is
`-(2^k)` times the value of the scale (both in units of 2^-24), and it is finite. -/
def Obligations.BiasgenIsExact : Prop :=
  ∀ (h : Half) (k : Nat), k = 3 ∨ k = 7 → (halfExp h).toNat ≠ 31 →
    (halfExp h = 0 ∨ (halfExp h).toNat + k < 31) →
    halfUnits (biasgen h k) = -(2 ^ k) * halfUnits h ∧ halfExp (biasgen h k) ≠ 31

/-- R126: a normal scale with `exp + k ≥ 31` gives the infinity of the product's sign, whose exact magnitude is at least
65536; for k = 3 that is |scale| at least 8192, for k = 7 at least 512, exactly on the stated bit patterns; with the
worked examples. The infinity is the spec's own decision D10 (notes/assumptions/3.md). -/
def Obligations.BiasgenOverflowsExactly : Prop :=
  (∀ (h : Half) (k : Nat), k = 3 ∨ k = 7 → 0 < (halfExp h).toNat → (halfExp h).toNat < 31 →
    31 ≤ (halfExp h).toNat + k →
    biasgen h k = halfOf (halfSign h ^^^ 1) 31 0 ∧ 65536 * 2 ^ 24 ≤ 2 ^ k * (halfUnits h).natAbs) ∧
  (∀ h : Half, (halfExp h).toNat < 31 →
    (biasgen h 3 = halfOf (halfSign h ^^^ 1) 31 0 ↔ 8192 * 2 ^ 24 ≤ (halfUnits h).natAbs) ∧
    (8192 * 2 ^ 24 ≤ (halfUnits h).natAbs ↔
      (0x7000 ≤ h.toNat ∧ h.toNat ≤ 0x7BFF) ∨ (0xF000 ≤ h.toNat ∧ h.toNat ≤ 0xFBFF)) ∧
    (biasgen h 7 = halfOf (halfSign h ^^^ 1) 31 0 ↔ 512 * 2 ^ 24 ≤ (halfUnits h).natAbs) ∧
    (512 * 2 ^ 24 ≤ (halfUnits h).natAbs ↔
      (0x6000 ≤ h.toNat ∧ h.toNat ≤ 0x7BFF) ∨ (0xE000 ≤ h.toNat ∧ h.toNat ≤ 0xFBFF))) ∧
  biasgen 0x6FFF 3 = 0xFBFF ∧ biasgen 0x7000 3 = 0xFC00

/-- R127, R132: the bias of a NaN is some NaN (whatever the free value is); of an infinity the other infinity; of a zero
the other zero; and for every other scale too the sign is the complement of the scale's.
The NaN is a free value (notes/assumptions/2.md); the statement holds whichever it is. -/
def Obligations.BiasgenOfSpecialScales : Prop :=
  ∀ (h : Half) (k : Nat), k = 3 ∨ k = 7 →
    (isNaN h = true → isNaN (biasgen h k) = true) ∧
    (isNaN h = false → halfSign (biasgen h k) = ~~~ (halfSign h)) ∧
    (h = 0x7C00 → biasgen h k = 0xFC00) ∧ (h = 0xFC00 → biasgen h k = 0x7C00) ∧
    (h = 0x0000 → biasgen h k = 0x8000) ∧ (h = 0x8000 → biasgen h k = 0x0000)

/-- R131: with a derived bias that did not overflow, code * scale + bias is (code - 8) * scale for Q4_0 and
(code - 128) * scale for Q8_0, exactly. -/
def Obligations.DerivedBiasRecentresCodes : Prop :=
  ∀ (h : Half) (c : Nat), (halfExp h).toNat ≠ 31 →
    ((halfExp h = 0 ∨ (halfExp h).toNat + 3 < 31) →
      dequantUnits c h (biasgen h 3) = ((c : Int) - 8) * halfUnits h) ∧
    ((halfExp h = 0 ∨ (halfExp h).toNat + 7 < 31) →
      dequantUnits c h (biasgen h 7) = ((c : Int) - 128) * halfUnits h)

/-- R129, and the arithmetic of R128: the flipped byte, read unsigned, is the stored byte read signed plus 128; flipping
twice gives the byte back, so FLIP8 is a bijection; and no byte is left as it was. -/
def Obligations.FlipAddsHalfTheRange : Prop :=
  (∀ b : Byte, ((flip8 b).toNat : Int) = b.toInt + 128 ∧ flip8 (flip8 b) = b ∧ flip8 b ≠ b) ∧
  Function.Bijective flip8

/-- R120, R130: a 16-bit field and a weight word are the little-endian readings of two and of four bytes. -/
def Obligations.FieldsAndWordsAreLittleEndian : Prop :=
  (∀ (blk : Vector Byte 34) (p : Fin 33), fld16 blk p = blk[p.val + 1] ++ blk[p.val]) ∧
  (∀ (out : Vector Byte 32) (k : Fin 8),
    repack32 out k = out[4 * k.val + 3] ++ out[4 * k.val + 2] ++ out[4 * k.val + 1] ++ out[4 * k.val])

/-! ## One operation, step by step -/

/-- What CHECK does for an operation with latch row `l` (R183, R184, R192): the three outcomes that are next states, each
on hypotheses about the operands, the bound spaces and the FLAGS write alone, and the refused launch (R60, R283).
Model's own: one exec is one engine step (notes/assumptions/7.md); where a broken launch premise is refused (8), and that
storage longer than the job breaks none (26); the mark `flagsChosen` of a FLAGS write, which every CHECK takes away (23). -/
def CheckOutcomes (run : Word → Word → State → StepResult) (l : Latch) : Prop :=
  ∀ (lastdim outer : Word) (s : State), s.fsm = .check →
    (lastdim.toNat % 32 ≠ 0 → run lastdim outer s =
      .next { s with errcode := 1, err := true, flagsChosen := false, fsm := .idle }) ∧
    (lastdim.toNat % 32 = 0 → outer.toNat * (lastdim.toNat / 32) = 0 →
      run lastdim outer s = .next { s with
        kind := l.kind, litl := l.litl, bs := l.bs, coff := l.coff, ob := l.ob, wpbk := l.wpbk
        nblk := 0, bidx := 0, flagsChosen := false, done := true, fsm := .idle }) ∧
    (lastdim.toNat % 32 = 0 → outer.toNat * (lastdim.toNat / 32) ≠ 0 →
      missingSpace s l (outer.toNat * (lastdim.toNat / 32)) = none → (l.kind = .q4_1 → s.flagsChosen = true) →
      run lastdim outer s = .next { s with
        kind := l.kind, litl := l.litl, bs := l.bs, coff := l.coff, ob := l.ob, wpbk := l.wpbk
        nblk := BitVec.ofNat 64 (outer.toNat * (lastdim.toNat / 32)), bidx := 0, flagsChosen := false, fsm := .fetch }) ∧
    (∀ sp, lastdim.toNat % 32 = 0 → outer.toNat * (lastdim.toNat / 32) ≠ 0 →
      missingSpace s l (outer.toNat * (lastdim.toNat / 32)) = some sp → run lastdim outer s = .refused (.unbound sp)) ∧
    (lastdim.toNat % 32 = 0 → outer.toNat * (lastdim.toNat / 32) ≠ 0 →
      missingSpace s l (outer.toNat * (lastdim.toNat / 32)) = none → l.kind = .q4_1 → s.flagsChosen = false →
      run lastdim outer s = .refused .flagsNotChosen)

/-- What the block steps do for an operation, given the HEADER and CODES results of its scheme (R186 to R190): each
answers a next state that differs from `s` in the named fields only.
Model's own: exec in IDLE changes nothing (notes/assumptions/7.md); FETCH and STORE are one step each (10). -/
def BlockOutcomes (run : State → StepResult) (bias : State → Half) (out : State → Vector Byte 32) : Prop :=
  ∀ s : State,
    (s.fsm = .fetch → s.bs.toNat ≤ 34 → s.srcSpace.holds 1 (s.bidx.toNat * s.bs.toNat + s.bs.toNat) = true →
      ∃ blk : Vector Byte 34, run s = .next { s with blk := blk, fsm := .header } ∧
        ∀ i : Fin 34, blk[i.val] =
          if i.val < s.bs.toNat then s.srcSpace.peek (s.bidx.toNat * s.bs.toNat + i.val) else s.blk[i.val]) ∧
    (s.fsm = .header → run s = .next { s with scale := s.blk[1] ++ s.blk[0], bias := bias s, fsm := .codes }) ∧
    (s.fsm = .codes → run s = .next { s with out := out s, fsm := .store }) ∧
    (s.fsm = .store → s.wpbk.toNat ≤ 8 → s.sSpace.holds 2 (s.bidx.toNat + 1) = true →
      s.bSpace.holds 2 (s.bidx.toNat + 1) = true → s.wSpace.holds 4 (s.bidx.toNat * s.wpbk.toNat + s.wpbk.toNat) = true →
      run s = .next { s with
        sSpace := s.sSpace.pokeHalf s.bidx.toNat s.scale, bSpace := s.bSpace.pokeHalf s.bidx.toNat s.bias
        wSpace := storeWords s.wSpace (s.bidx.toNat * s.wpbk.toNat) s.wpbk.toNat s.out
        bidx := s.bidx + 1
        done := if s.bidx + 1 = s.nblk then true else s.done
        fsm := if s.bidx + 1 = s.nblk then .idle else .fetch }) ∧
    (s.fsm = .idle → run s = .next s)

/-- The sixteen code bytes of a low-bit block from BLK[COFF] on, unpacked into OUT[0..15]; OUT[16..31] keep (R188). -/
def unpackedOut (s : State) : Vector Byte 32 :=
  Vector.ofFn fun i =>
    if h : i.val < 16 then
      (nunpack (Vector.ofFn fun j : Fin 16 => s.blk[s.coff.toNat + j.val]'(by have := s.coff.isLt; omega)))[i.val]
    else s.out[i.val]

/-- DEC.Q4_0 (R140): every step of the operation completes, with the state it leaves. -/
def Obligations.DecQ40Steps : Prop :=
  ∀ flags tag : Word,
    CheckOutcomes (fun lastdim outer => exec (.decQ40 flags lastdim outer tag))
      { kind := .q4_0, litl := false, bs := 18, coff := 2, ob := 16, wpbk := 4 } ∧
    ∀ lastdim outer : Word, BlockOutcomes (exec (.decQ40 flags lastdim outer tag))
      (fun s => biasgen (s.blk[1] ++ s.blk[0]) 3) unpackedOut

/-- DEC.Q4_1 (R150): every step of the operation completes, with the state it leaves. -/
def Obligations.DecQ41Steps : Prop :=
  ∀ tag : Word,
    CheckOutcomes (fun lastdim outer => exec (.decQ41 lastdim outer tag))
      { kind := .q4_1, litl := false, bs := 20, coff := 4, ob := 16, wpbk := 4 } ∧
    ∀ lastdim outer : Word, BlockOutcomes (exec (.decQ41 lastdim outer tag))
      (fun s => s.blk[3] ++ s.blk[2]) unpackedOut

/-- DEC.Q4_1L (R151): every step of the operation completes, with the state it leaves. -/
def Obligations.DecQ41LSteps : Prop :=
  ∀ tag : Word,
    CheckOutcomes (fun lastdim outer => exec (.decQ41L lastdim outer tag))
      { kind := .q4_1, litl := true, bs := 20, coff := 2, ob := 16, wpbk := 4 } ∧
    ∀ lastdim outer : Word, BlockOutcomes (exec (.decQ41L lastdim outer tag))
      (fun s => s.blk[3] ++ s.blk[2]) unpackedOut

/-- DEC.Q8_0 (R165): every step of the operation completes, with the state it leaves. -/
def Obligations.DecQ80Steps : Prop :=
  ∀ flags tag : Word,
    CheckOutcomes (fun lastdim outer => exec (.decQ80 flags lastdim outer tag))
      { kind := .q8_0, litl := false, bs := 34, coff := 2, ob := 32, wpbk := 8 } ∧
    ∀ lastdim outer : Word, BlockOutcomes (exec (.decQ80 flags lastdim outer tag))
      (fun s => biasgen (s.blk[1] ++ s.blk[0]) 7) (fun s => Vector.ofFn fun i => s.blk[2 + i.val] ^^^ 0x80)

/-- START (R181): a RegWrite to CTRL with bit 0 set is a START that acknowledges first when bit 1 is set; the next state
on every path, with everything it leaves alone. -/
def Obligations.StartOutcomes : Prop :=
  (∀ (v : Word) (s : State), v.getLsbD 0 = true →
    hostRegWrite 0x00 v s = exec (.start (v.getLsbD 1) (v.extractLsb' 2 30)) s) ∧
  ∀ (a : Bool) (r : BitVec 30) (s : State),
    (s.fsm ≠ .idle → exec (.start a r) s = .next s) ∧
    (s.fsm = .idle → s.err = true → a = false → exec (.start a r) s = .next s) ∧
    (s.fsm = .idle → s.err = false → a = false →
      exec (.start a r) s = .next { s with done := false, fsm := .check }) ∧
    (s.fsm = .idle → a = true →
      exec (.start a r) s = .next { s with done := false, err := false, errcode := 0, fsm := .check }) ∧
    (∀ t, exec (.start a r) s = .next t → t.fsm = .check → t.busy = true ∧ t.locked = true)

/-- ACK (R258): a RegWrite to CTRL with bit 1 set and bit 0 clear; the next state on every path, with everything it
leaves alone; after it the descriptor registers are writable. -/
def Obligations.AckOutcomes : Prop :=
  (∀ (v : Word) (s : State), v.getLsbD 0 = false → v.getLsbD 1 = true →
    hostRegWrite 0x00 v s = exec (.ack (v.extractLsb' 2 30)) s) ∧
  ∀ (r : BitVec 30) (s : State),
    (s.fsm = .idle → exec (.ack r) s = .next { s with done := false, err := false, errcode := 0 } ∧
      ({ s with done := false, err := false, errcode := 0 } : State).locked = false) ∧
    (s.fsm ≠ .idle → exec (.ack r) s = .next s) ∧
    (s.fsm = .idle → ErrcodeMatches s → s.done = false → s.err = false → exec (.ack r) s = .next s)

/-! ## One block -/

/-- Code `c` of a word of eight 4-bit codes (R77). -/
def wordNibble (v : Word) (c : Nat) : BitVec 4 := v.extractLsb' (4 * c) 4

/-- What a low-bit operation makes of block `b`, with its window at byte `p` of the block: SCALE is block bytes 0 and 1
verbatim, BIAS as given, OUT[0..15] the unpacked window; S[b] and B[b] hold SCALE and BIAS, and word `4b + k` holds four
staging bytes, which are the codes `8k` to `8k + 7` in bits 4c+3 : 4c (R140, R141). -/
def LowBitBlock (s t : State) (bs p b : Nat) (bias : Half) : Prop :=
  t.scale = sourceField s.srcSpace (bs * b) ∧ t.bias = bias ∧
    (∀ i : Fin 16, t.out[i.val] = (nunpack (Vector.ofFn fun j => s.srcSpace.peek (bs * b + p + j.val)))[i.val]) ∧
    t.sSpace.halfAt b = t.scale ∧ t.bSpace.halfAt b = t.bias ∧
    (∀ k : Fin 8, k.val < 4 → t.wSpace.wordAt (4 * b + k.val) = repack32 t.out k) ∧
    ∀ k c, k < 4 → c < 8 →
      wordNibble (t.wSpace.wordAt (4 * b + k)) c = lowBitCode s.srcSpace (bs * b + p) (8 * k + c)

/-- One block of a job is done: besides the block buffers and the three output spaces, BIDX moves on, the last block ends
the job with DONE, and nothing else changes: no error, no descriptor register, no latch, nothing of the host. -/
def BlockPassed (s t : State) : Prop :=
  t = { s with
    blk := t.blk, scale := t.scale, bias := t.bias, out := t.out
    sSpace := t.sSpace, bSpace := t.bSpace, wSpace := t.wSpace
    bidx := s.bidx + 1
    done := if s.bidx + 1 = s.nblk then true else s.done
    fsm := if s.bidx + 1 = s.nblk then .idle else .fetch }

/-- R140: a descriptor with QT = 2 is DEC.Q4_0, whatever FLAGS holds; and from FETCH its four steps decode block BIDX:
scale verbatim, bias BIASGEN(scale, 3), the codes of block bytes 2 to 17; no byte outside the block's elements changes. -/
def Obligations.DecQ40DecodesBlock : Prop :=
  (∀ f l o t : Word, decode .jd [2, f, l, o, t] = .ok (.decQ40 (f &&& 1) l o t)) ∧
  ∀ (flags lastdim outer tag : Word) (s : State), s.fsm = .fetch → s.latch = latchQ40 → SpacesCanonical s →
    BlockBound s latchQ40 s.bidx.toNat →
    ∃ t, execRun (.decQ40 flags lastdim outer tag) 4 s = .next t ∧
      LowBitBlock s t 18 2 s.bidx.toNat (biasgen (sourceField s.srcSpace (18 * s.bidx.toNat)) 3) ∧
      OnlyBlockWritten s t latchQ40 s.bidx.toNat ∧ BlockPassed s t

/-- R150: a descriptor with QT = 3 and LIT = 0 is DEC.Q4_1; and from FETCH its four steps decode block BIDX: bias bytes 2
and 3 verbatim, codes of block bytes 4 to 19. -/
def Obligations.DecQ41DecodesBlock : Prop :=
  (∀ f l o t : Word, f.getLsbD 0 = false → decode .jd [3, f, l, o, t] = .ok (.decQ41 l o t)) ∧
  ∀ (lastdim outer tag : Word) (s : State), s.fsm = .fetch → s.latch = latchQ41 → SpacesCanonical s →
    BlockBound s latchQ41 s.bidx.toNat →
    ∃ t, execRun (.decQ41 lastdim outer tag) 4 s = .next t ∧
      LowBitBlock s t 20 4 s.bidx.toNat (sourceField s.srcSpace (20 * s.bidx.toNat + 2)) ∧
      OnlyBlockWritten s t latchQ41 s.bidx.toNat ∧ BlockPassed s t

/-- R151: a descriptor with QT = 3 and LIT = 1 is DEC.Q4_1L; and from FETCH its four steps decode block BIDX: bias bytes 2
and 3 verbatim, codes of block bytes 2 to 17. -/
def Obligations.DecQ41LDecodesBlock : Prop :=
  (∀ f l o t : Word, f.getLsbD 0 = true → decode .jd [3, f, l, o, t] = .ok (.decQ41L l o t)) ∧
  ∀ (lastdim outer tag : Word) (s : State), s.fsm = .fetch → s.latch = latchQ41L → SpacesCanonical s →
    BlockBound s latchQ41L s.bidx.toNat →
    ∃ t, execRun (.decQ41L lastdim outer tag) 4 s = .next t ∧
      LowBitBlock s t 20 2 s.bidx.toNat (sourceField s.srcSpace (20 * s.bidx.toNat + 2)) ∧
      OnlyBlockWritten s t latchQ41L s.bidx.toNat ∧ BlockPassed s t

/-- R165: a descriptor with QT = 8 is DEC.Q8_0, whatever FLAGS holds; and from FETCH its four steps decode block BIDX:
scale verbatim, bias BIASGEN(scale, 7), and staging byte `i` the code byte `i` with its top bit flipped; output code
`4k + c` stands in bits 8c+7 : 8c of word `8b + k` (R166). -/
def Obligations.DecQ80DecodesBlock : Prop :=
  (∀ f l o t : Word, decode .jd [8, f, l, o, t] = .ok (.decQ80 (f &&& 1) l o t)) ∧
  ∀ (flags lastdim outer tag : Word) (s : State), s.fsm = .fetch → s.latch = latchQ80 → SpacesCanonical s →
    BlockBound s latchQ80 s.bidx.toNat →
    ∃ t, execRun (.decQ80 flags lastdim outer tag) 4 s = .next t ∧
      t.scale = sourceField s.srcSpace (34 * s.bidx.toNat) ∧
      t.bias = biasgen (sourceField s.srcSpace (34 * s.bidx.toNat)) 7 ∧
      (∀ i : Fin 32, t.out[i.val] = flip8 (s.srcSpace.peek (34 * s.bidx.toNat + 2 + i.val))) ∧
      t.sSpace.halfAt s.bidx.toNat = t.scale ∧ t.bSpace.halfAt s.bidx.toNat = t.bias ∧
      (∀ k : Fin 8, t.wSpace.wordAt (8 * s.bidx.toNat + k.val) = repack32 t.out k) ∧
      (∀ k c, k < 8 → c < 4 →
        (t.wSpace.wordAt (8 * s.bidx.toNat + k)).extractLsb' (8 * c) 8 =
          s.srcSpace.peek (34 * s.bidx.toNat + 2 + (4 * k + c)) ^^^ 0x80) ∧
      OnlyBlockWritten s t latchQ80 s.bidx.toNat ∧ BlockPassed s t

/-- R153: the two Q4_1 windows: from one block in HEADER both operations leave the same scale and bias; the literal
unpacker input is the documented one two bytes later, after the two bias bytes, and so are its logical codes; and the
unpacked bytes agree only where the windows do. -/
def Obligations.Q41WindowsDiffer : Prop :=
  (∀ (l o g l' o' g' : Word) (s : State), s.fsm = .header →
    ∃ t t', exec (.decQ41 l o g) s = .next t ∧ exec (.decQ41L l' o' g') s = .next t' ∧
      t.scale = t'.scale ∧ t.bias = t'.bias) ∧
  ∀ blk : Vector Byte 34,
    (codeWindow blk 2)[0] = blk[2] ∧ (codeWindow blk 2)[1] = blk[3] ∧
    (∀ j : Fin 14, (codeWindow blk 2)[j.val + 2] = (codeWindow blk 4)[j.val]) ∧
    (∀ k : Fin 14, wireCode (codeWindow blk 2) ⟨k.val + 2, by omega⟩ = wireCode (codeWindow blk 4) ⟨k.val, by omega⟩ ∧
      wireCode (codeWindow blk 2) ⟨k.val + 18, by omega⟩ = wireCode (codeWindow blk 4) ⟨k.val + 16, by omega⟩) ∧
    (nunpack (codeWindow blk 2) = nunpack (codeWindow blk 4) ↔ ∀ j : Fin 16, blk[j.val + 2] = blk[j.val + 4])

/-! ## The whole job -/

/-- R194, R190: with nobody else to move, a job from CHECK under the invariant runs as the big-step function says: a bad
shape or an unsupported type ends it in one step with memory unchanged, and any other job whose launch premises hold (they
are asked of a job with blocks only) ends after 1 + 4 * NBLK steps with every block decoded and nothing else written.
"Nobody else to move" is the model's empty list of turns and of host actions (notes/assumptions/5.md); `flagsChosen` is the model's mark
(23); storage longer than the job breaks no launch premise (26). -/
def Obligations.JobComputesEveryBlock : Prop :=
  ∀ s : State, StateInv s → s.fsm = .check → s.sched = [] → s.prog = [] →
    (s.lastdim.toNat % 32 ≠ 0 →
      ∃ t, Sys2Proof.core.run 1 s = .next t ∧ t = { s with
        err := true, errcode := 1, done := false, flagsChosen := false, fsm := .idle }) ∧
    (s.lastdim.toNat % 32 = 0 → s.qtype ≠ 2 → s.qtype ≠ 3 → s.qtype ≠ 8 →
      ∃ t, Sys2Proof.core.run 1 s = .next t ∧ t = { s with
        err := true, errcode := 2, done := false, flagsChosen := false, fsm := .idle }) ∧
    (∀ l, s.lastdim.toNat % 32 = 0 → latchOf s.qtype s.lit = some l →
      (blockCount s.lastdim s.outer ≠ 0 → launchProblem s l (blockCount s.lastdim s.outer) = none) →
      ∃ t, Sys2Proof.core.run (1 + 4 * blockCount s.lastdim s.outer) s = .next t ∧
        t.fsm = .idle ∧ t.done = true ∧ t.err = false ∧ t.errcode = 0 ∧ SameDescriptor s t ∧
        (∀ b, b < blockCount s.lastdim s.outer → BlockDecoded l s.srcSpace t b) ∧
        OnlyJobWritten s t l (blockCount s.lastdim s.outer))

/-- R190, R193, R257: past CHECK a job always ends, with DONE and no error, after four steps for each block that is left;
no step of it is refused or faults.
The schedule is the model's fair policy with no host action (notes/assumptions/5.md). -/
def Obligations.RunningJobAlwaysCompletes : Prop :=
  ∀ s : State, StateInv s → s.fsm = .fetch → s.sched = [] → s.prog = [] →
    (∃ t, Sys2Proof.core.run (4 * (s.nblk.toNat - s.bidx.toNat)) s = .next t ∧ JobEnded t ∧ t.done = true ∧
      t.bidx = s.nblk) ∧
    (∀ k, k < 4 * (s.nblk.toNat - s.bidx.toNat) →
      ∃ t, Sys2Proof.core.run k s = .next t ∧ t.busy = true ∧ t.err = false)

/-- R9: no job reads a working register that an earlier job wrote: two machines that differ only in those registers end
the job with the same memory, status and host. -/
def Obligations.StaleWorkingRegistersNeverMatter : Prop :=
  ∀ s s' t : State, s.fsm = .check → s.sched = [] → s.prog = [] → SameButWorking s s' →
    Sys2Proof.core.run (1 + 4 * blockCount s.lastdim s.outer) s = .next t →
    ∃ t', Sys2Proof.core.run (1 + 4 * blockCount s.lastdim s.outer) s' = .next t' ∧ SameButWorking t t'

/-- R21, R58: after CHECK the engine does not read the descriptor registers: changing them changes nothing else. -/
def Obligations.BlockStepsIgnoreDescriptor : Prop :=
  ∀ (s t : State) (q l o g : Word) (lit : Bool), s.inBlock = true → engineTurn s = .next t →
    engineTurn { s with qtype := q, lit := lit, lastdim := l, outer := o, tag := g } =
      .next { t with qtype := q, lit := lit, lastdim := l, outer := o, tag := g }

/-- R33, R40: a turn of the engine writes only what the table of R33 lets it: never SRC, the descriptor or anything of
the host; W, S and B only in STORE, and there only the elements of block BIDX, the extents untouched; the latch, NBLK, ERR
and ERRCODE only in CHECK; BIDX only in CHECK and STORE; DONE only in CHECK, for a job of no blocks, and in the last STORE;
BLK only in FETCH, SCALE and BIAS only in HEADER, OUT only in CODES. Model's own: the mark `flagsChosen` is taken in CHECK
(notes/assumptions/23.md). -/
def Obligations.EngineTurnFrame : Prop :=
  ∀ s t : State, SpacesCanonical s → engineTurn s = .next t →
    SameDescriptor s t ∧ t.srcSpace = s.srcSpace ∧ t.maps = s.maps ∧ t.prog = s.prog ∧ t.sched = s.sched ∧
    t.reads = s.reads ∧ t.reports = s.reports ∧ t.issued = s.issued ∧
    (s.fsm ≠ .store → t.wSpace = s.wSpace ∧ t.sSpace = s.sSpace ∧ t.bSpace = s.bSpace) ∧
    (s.fsm = .store → OnlyBlockWritten s t s.latch s.bidx.toNat ∧ t.bidx = s.bidx + 1 ∧
      (t.done ≠ s.done → t.done = true ∧ t.bidx = s.nblk)) ∧
    (s.fsm = .check → t.done ≠ s.done → t.done = true ∧ t.nblk = 0) ∧
    (s.fsm ≠ .check → t.latch = s.latch ∧ t.nblk = s.nblk ∧ t.err = s.err ∧ t.errcode = s.errcode ∧
      t.flagsChosen = s.flagsChosen) ∧
    (s.fsm ≠ .check → s.fsm ≠ .store → t.bidx = s.bidx ∧ t.done = s.done) ∧
    (s.fsm ≠ .fetch → t.blk = s.blk) ∧ (s.fsm ≠ .codes → t.out = s.out) ∧
    (s.fsm ≠ .header → t.scale = s.scale ∧ t.bias = s.bias)

/-! ## Invariants and rules of the whole machine -/

/-- Every step, of the host, of the engine or a reset, keeps the invariant (R13, R14, R21, R22, R58, R60, R228). -/
def Obligations.StepKeepsInvariant : Prop := ∀ s t : State, StateInv s → step s = .next t → StateInv t

/-- The state after reset meets the invariant.
It holds for any values of the working registers at reset (notes/assumptions/1.md). -/
def Obligations.ResetMeetsInvariant : Prop := StateInv State.reset

/-- R31: what reset leaves in the registers the rule gives a value, as the host reads them (vector CS11). -/
def Obligations.ResetRegistersReadZero : Prop :=
  State.reset.fsm = .idle ∧ State.reset.busy = false ∧ State.reset.done = false ∧ State.reset.err = false ∧
  State.reset.errcode = 0 ∧ State.reset.qtype = 0 ∧ State.reset.lit = false ∧ State.reset.lastdim = 0 ∧
  State.reset.outer = 0 ∧ State.reset.tag = 0 ∧ ∀ k : Fin 8, State.reset.regLoad (4 * k.val) = 0

/-- R280 to R282: a reset turn, at any time, leaves IDLE with no status and a zero descriptor, and touches no space, no
binding and nothing of the host.
Model's own: reset as a turn, and a host whose actions survive it (notes/assumptions/20.md); the FLAGS write that a launch
asks for has to be made again (23). -/
def Obligations.ResetTurnKeepsMemory : Prop :=
  ∀ (s : State) (ts : List Turn), s.sched = .reset :: ts →
    ∃ t, step s = .next t ∧ t.fsm = .idle ∧ t.done = false ∧ t.err = false ∧ t.errcode = 0 ∧
      t.qtype = 0 ∧ t.lit = false ∧ t.lastdim = 0 ∧ t.outer = 0 ∧ t.tag = 0 ∧
      t.srcSpace = s.srcSpace ∧ t.wSpace = s.wSpace ∧ t.sSpace = s.sSpace ∧ t.bSpace = s.bSpace ∧
      t.maps = s.maps ∧ t.prog = s.prog ∧ t.sched = ts ∧ t.reads = s.reads ∧ t.reports = s.reports ∧
      t.issued = s.issued ∧ t.flagsChosen = false

/-- R256, R257: only CHECK raises an error, and it changes ERRCODE, ERR and FSM and nothing else (but for the model's own
list of turns and its mark of a FLAGS write, notes/assumptions/5.md and 23.md): no memory, no latch, no counter. -/
def Obligations.OnlyCheckRaisesErrors : Prop :=
  ∀ s t : State, step s = .next t → s.err = false → t.err = true →
    s.fsm = .check ∧ (t.errcode = 1 ∨ t.errcode = 2) ∧
      t = { s with sched := t.sched, flagsChosen := false, errcode := t.errcode, err := true, fsm := .idle } ∧
      t.locked = true

/-- R183, R184, R255: the CHECK step: the shape first, then the type, each with the whole state the error leaves; else the
latch row of the type, NBLK and BIDX, and DONE for a zero-block job or FETCH. R60, R283: a launch with a broken premise is
refused, and the premises tested are P1, P2 and, for Q4_1, P4. Model's own: that the refusal comes here, after both error
tests and for a job with blocks, and names the first missing of SRC, W, S, B, then FLAGS (notes/assumptions/8.md and
23.md); that storage longer than the job breaks no premise (26). -/
def Obligations.CheckTestsShapeThenType : Prop :=
  (∀ lit, latchOf 2 lit = some { kind := .q4_0, litl := false, bs := 18, coff := 2, ob := 16, wpbk := 4 }) ∧
  latchOf 3 false = some { kind := .q4_1, litl := false, bs := 20, coff := 4, ob := 16, wpbk := 4 } ∧
  latchOf 3 true = some { kind := .q4_1, litl := true, bs := 20, coff := 2, ob := 16, wpbk := 4 } ∧
  (∀ lit, latchOf 8 lit = some { kind := .q8_0, litl := false, bs := 34, coff := 2, ob := 32, wpbk := 8 }) ∧
  (∀ q lit, q ≠ 2 → q ≠ 3 → q ≠ 8 → latchOf q lit = none) ∧
  (∀ (s : State) (l : Latch) (n : Nat), launchProblem s l n = none ↔
    n * l.bs.toNat ≤ s.srcSpace.extent ∧ 4 * (n * l.wpbk.toNat) ≤ s.wSpace.extent ∧ 2 * n ≤ s.sSpace.extent ∧
      2 * n ≤ s.bSpace.extent ∧ (l.kind = .q4_1 → s.flagsChosen = true)) ∧
  ∀ s : State, s.fsm = .check →
    (s.lastdim.toNat % 32 ≠ 0 → engineTurn s =
      .next { s with errcode := 1, err := true, flagsChosen := false, fsm := .idle }) ∧
    (s.lastdim.toNat % 32 = 0 → s.qtype ≠ 2 → s.qtype ≠ 3 → s.qtype ≠ 8 →
      engineTurn s = .next { s with errcode := 2, err := true, flagsChosen := false, fsm := .idle }) ∧
    (∀ l, s.lastdim.toNat % 32 = 0 → latchOf s.qtype s.lit = some l →
      let n := s.outer.toNat * (s.lastdim.toNat / 32)
      (n = 0 → engineTurn s = .next { s with
        kind := l.kind, litl := l.litl, bs := l.bs, coff := l.coff, ob := l.ob, wpbk := l.wpbk
        nblk := 0, bidx := 0, flagsChosen := false, done := true, fsm := .idle }) ∧
      (n ≠ 0 → launchProblem s l n = none → engineTurn s = .next { s with
        kind := l.kind, litl := l.litl, bs := l.bs, coff := l.coff, ob := l.ob, wpbk := l.wpbk
        nblk := BitVec.ofNat 64 n, bidx := 0, flagsChosen := false, fsm := .fetch }) ∧
      (∀ r, n ≠ 0 → launchProblem s l n = some r → engineTurn s = .refused r))

/-- R29: while BUSY = 1 or ERR = 1 a RegWrite to QTYPE, FLAGS, LASTDIM, OUTER or TAG changes nothing, a RegRead returns
the stored value, and no step but a reset changes one of them; while both are 0 the registers are writable.
Model's own: a write to FLAGS that is not locked out also sets the mark `flagsChosen` (notes/assumptions/23.md). -/
def Obligations.DescriptorIsLocked : Prop :=
  (∀ (s : State) (offset : Nat) (v : Word), s.locked = true → offset ∈ [0x0C, 0x10, 0x14, 0x18, 0x1C] →
    hostRegWrite offset v s = .next s) ∧
  (∀ s : State,
    hostRegRead 0x0C s = .next { s with reads := s.reads ++ [.reg 0x0C s.qtype] } ∧
    hostRegRead 0x10 s = .next { s with reads := s.reads ++ [.reg 0x10 (if s.lit then 1 else 0)] } ∧
    hostRegRead 0x14 s = .next { s with reads := s.reads ++ [.reg 0x14 s.lastdim] } ∧
    hostRegRead 0x18 s = .next { s with reads := s.reads ++ [.reg 0x18 s.outer] } ∧
    hostRegRead 0x1C s = .next { s with reads := s.reads ++ [.reg 0x1C s.tag] }) ∧
  (∀ s t : State, s.locked = true → s.sched.head? ≠ some .reset → (∀ k, s.sched.head? ≠ some (.resetInStore k)) →
    step s = .next t → SameDescriptor s t) ∧
  (∀ (s : State) (v : Word), s.busy = false → s.err = false →
    hostRegWrite 0x0C v s = .next { s with qtype := v } ∧
    hostRegWrite 0x10 v s = .next { s with lit := v.getLsbD 0, flagsChosen := true } ∧
    hostRegWrite 0x14 v s = .next { s with lastdim := v } ∧ hostRegWrite 0x18 v s = .next { s with outer := v } ∧
    hostRegWrite 0x1C v s = .next { s with tag := v })

/-- R12, R196, R198: while BUSY = 1 a register write of the host, whatever the register and the value, changes nothing but
the host's own list of actions; there is no cancel. -/
def Obligations.RegisterWritesWhileBusyAreIgnored : Prop :=
  ∀ (s : State) (offset : Nat) (v : Word) (rest : List HostOp), s.busy = true → offset % 4 = 0 → offset < 0x20 →
    s.prog = .regWrite offset v :: rest → hostTurn s = .next { s with prog := rest }

/-- R12: an unlocked write of 3 to CTRL acknowledges and then starts; a value with neither command bit does nothing; and
bits 31:2 are ignored. -/
def Obligations.CtrlWritesDecodeByBits : Prop :=
  ∀ (v : Word) (s : State),
    (v.getLsbD 0 = false → v.getLsbD 1 = false → ctrlWrite v s = .next s) ∧
    (v.getLsbD 0 = false → v.getLsbD 1 = true → ctrlWrite v s = exec (.ack 0) s) ∧
    (v.getLsbD 0 = true → v.getLsbD 1 = false → ctrlWrite v s = exec (.start false 0) s) ∧
    (v.getLsbD 0 = true → v.getLsbD 1 = true → s.fsm = .idle →
      ∃ t, exec (.ack 0) s = .next t ∧ ctrlWrite v s = exec (.start false 0) t)

/-- R13, R14, R16: what STATUS, ERRCODE, FLAGS and CTRL read as; reserved bits read 0. -/
def Obligations.StatusWordsReadTheFlags : Prop :=
  ∀ s : State,
    (s.regLoad 0x04).getLsbD 0 = s.busy ∧ (s.regLoad 0x04).getLsbD 1 = s.done ∧ (s.regLoad 0x04).getLsbD 2 = s.err ∧
    (∀ n, 3 ≤ n → (s.regLoad 0x04).getLsbD n = false) ∧
    (s.regLoad 0x08).extractLsb' 0 4 = s.errcode ∧ (∀ n, 4 ≤ n → (s.regLoad 0x08).getLsbD n = false) ∧
    (s.regLoad 0x10).getLsbD 0 = s.lit ∧ (∀ n, 1 ≤ n → (s.regLoad 0x10).getLsbD n = false) ∧
    s.regLoad 0x00 = 0

/-- R13, R14, R16: STATUS and ERRCODE ignore writes, whatever the state; FLAGS keeps and reads back bit 0 only; an
unlocked write to one descriptor register leaves what the others read. -/
def Obligations.RegisterReadBack : Prop :=
  ∀ (s : State) (v : Word),
    hostRegWrite 0x04 v s = .next s ∧ hostRegWrite 0x08 v s = .next s ∧
    (s.locked = false →
      (s.regStore 0x10 v).regLoad 0x10 = v &&& 1 ∧
      ∀ i j : Fin 5, (s.regStore (0x0C + 4 * i.val) v).regLoad (0x0C + 4 * j.val) =
        if i = j then (if i = 1 then v &&& 1 else v) else s.regLoad (0x0C + 4 * j.val))

/-- R30, U9: register accesses that are misaligned, narrow or outside the block are refused by name.
Model's own: offsets from 0x20 up are refused as well (notes/assumptions/17.md). -/
def Obligations.OddRegisterAccessesAreRefused : Prop :=
  ∀ (s : State) (offset bytes : Nat) (v : Word),
    (offset % 4 ≠ 0 → hostRegWrite offset v s = .refused (.misalignedRegister offset) ∧
      hostRegRead offset s = .refused (.misalignedRegister offset)) ∧
    (offset % 4 = 0 → 0x20 ≤ offset → hostRegWrite offset v s = .refused (.outsideBlock offset) ∧
      hostRegRead offset s = .refused (.outsideBlock offset)) ∧
    runHostOp (.narrowAccess offset bytes) s = .refused (.registerWidth offset bytes)

/-- R56, R285: while BUSY = 1 the host has no move that touches a space or its binding: element accesses, BIND and INSERT,
which reads W, S and B, are refused, and no turn of the host that answers a next state changes a space. Model's own: the
forbidden move is a refusal, BIND included (notes/assumptions/16.md). -/
def Obligations.SpacesAreUntouchableWhileBusy : Prop :=
  (∀ (s : State) (id : SpaceId) (i : Nat) (v : Word) (buf : Buffer), s.busy = true →
    hostReadElem id i s = .refused (.spaceWhileBusy id) ∧ hostWriteElem id i v s = .refused (.spaceWhileBusy id) ∧
    hostBind id buf s = .refused (.spaceWhileBusy id)) ∧
  (∀ (s : State) (map : MapHandle) (name : Key) (w z : List Nat) (stage : InsertStage), s.busy = true →
    hostInsert map name w z stage s = .refused (.spaceWhileBusy .w)) ∧
  (∀ s t : State, s.busy = true → hostTurn s = .next t →
    t.srcSpace = s.srcSpace ∧ t.wSpace = s.wSpace ∧ t.sSpace = s.sSpace ∧ t.bSpace = s.bSpace)

/-- R22, R185: the block count is below 2^59, so the 64-bit NBLK holds it without wrap; with the worked examples. -/
def Obligations.BlockCountNeverWraps : Prop :=
  (∀ lastdim outer : Word, blockCount lastdim outer < 2 ^ 59 ∧
    (BitVec.ofNat 64 (blockCount lastdim outer)).toNat = blockCount lastdim outer ∧
    (lastdim.toNat % 32 = 0 → 32 * blockCount lastdim outer = outer.toNat * lastdim.toNat)) ∧
  blockCount 64 1 = 2 ∧ blockCount 96 12 = 36

/-- A step runs the decoded instruction. Engine: in CHECK the descriptor registers decode to it; in the block steps the
latch names it, and under the invariant the locked registers decode to that same instruction. Host: a CTRL write
decodes to it. Where a turn is fixed in advance the step takes it off the list; a CTRL write leaves the host's list.
Model's own: turns and their order (notes/assumptions/5.md), one exec as one engine step (7). -/
def Obligations.StepRunsDecodedInstruction : Prop :=
  (∀ (s : State) (i : Instr), s.sched = [] → s.hostReady = false → s.fsm = .check → decode .jd s.descriptor = .ok i →
    step s = exec i s) ∧
  (∀ (s : State) (ts : List Turn) (i : Instr), s.sched = .engine :: ts → s.fsm = .check →
    decode .jd s.descriptor = .ok i → step s = exec i { s with sched := ts }) ∧
  (∀ (s : State), s.sched = [] → s.hostReady = false → s.inBlock = true → step s = exec s.running s) ∧
  (∀ (s : State) (ts : List Turn), s.sched = .engine :: ts → s.inBlock = true →
    step s = exec s.running { s with sched := ts }) ∧
  (∀ s : State, StateInv s → s.inBlock = true → decode .jd s.descriptor = .ok s.running) ∧
  (∀ (s : State) (v : Word) (rest : List HostOp) (i : Instr), s.sched = [] → s.prog = .regWrite 0x00 v :: rest →
    decode .cmd [v] = .ok i → step s = exec i { s with prog := rest }) ∧
  (∀ (s : State) (ts : List Turn) (v : Word) (rest : List HostOp) (i : Instr), s.sched = .host :: ts →
    s.prog = .regWrite 0x00 v :: rest → decode .cmd [v] = .ok i →
    step s = exec i { s with sched := ts, prog := rest })

/-! ## Memory -/

/-- Two canonical memories that read the same at every address are the same list.
The list form is the model's (notes/assumptions/14.md). -/
def Obligations.CanonicalMemoriesAreEqualData : Prop :=
  ∀ m m' : Memory, m.wf = true → m'.wf = true → (∀ a, Memory.peek m a = Memory.peek m' a) → m = m'

/-- R45: an element written reads back, and every byte outside it reads as before.
The byte view of an element is R47's and R48's, the list of bytes the model's (notes/assumptions/14.md). -/
def Obligations.ElementWritesReadBack : Prop :=
  ∀ (sp : Space) (i : Nat) (h : Half) (v : Word), sp.wf = true →
    (sp.pokeHalf i h).halfAt i = h ∧ (sp.pokeWord i v).wordAt i = v ∧
    (∀ a, a < 2 * i ∨ 2 * i + 2 ≤ a → (sp.pokeHalf i h).peek a = sp.peek a) ∧
    (∀ a, a < 4 * i ∨ 4 * i + 4 ≤ a → (sp.pokeWord i v).peek a = sp.peek a) ∧
    (∀ j, j ≠ i → (sp.pokeHalf i h).halfAt j = sp.halfAt j ∧ (sp.pokeWord i v).wordAt j = sp.wordAt j)

/-- R44: `MemRead(SRC, off, 2)` is the low byte or the high byte shifted by 8; nothing is read where a byte is not bound. -/
def Obligations.TwoByteReadIsLittleEndian : Prop :=
  ∀ (sp : Space) (off : Nat),
    (off + 2 ≤ sp.extent → memRead sp off 2 = some ((sp.peek off).toNat ||| ((sp.peek (off + 1)).toNat <<< 8))) ∧
    (sp.extent < off + 2 → memRead sp off 2 = none)

/-- A buffer with given bytes, bound to a space, reads as those bytes (R41, R43).
The list form is the model's (notes/assumptions/14.md). -/
def Obligations.BoundBufferReadsAsItsBytes : Prop :=
  ∀ (bytes : List Byte) (a : Nat),
    (Buffer.toSpace (.bytes bytes)).readByte a = bytes[a]? ∧ (Buffer.toSpace (.bytes bytes)).wf = true

/-! ## The host side of the Assembler -/

/-- R223, R224: the weight shape divides the last dimension by 8 (low-bit) or 4 (byte scheme), the scale and bias shape by
32; all other dimensions are unchanged and the divisions are exact; with the worked examples. -/
def Obligations.OutputShapesDivideExactly : Prop :=
  (∀ (lead : List Nat) (last : Nat), last % 32 = 0 →
    (∃ n, n * 8 = last ∧ weightShape 2 (lead ++ [last]) = some (lead ++ [n]) ∧
      weightShape 3 (lead ++ [last]) = some (lead ++ [n])) ∧
    (∃ n, n * 4 = last ∧ weightShape 8 (lead ++ [last]) = some (lead ++ [n])) ∧
    (∃ n, n * 32 = last ∧ scaleShape (lead ++ [last]) = lead ++ [n])) ∧
  weightShape 2 [64] = some [8] ∧ weightShape 8 [64] = some [16] ∧ scaleShape [64] = [2]

/-- R229, R230: the base is the name without one trailing ".weight", the seven characters as written; a CONVERT of a name
without it is refused (R233); and the three keys of a tensor are distinct. With the rule's worked examples. Model's own: the
suffix is tested before the shape, so the refusal comes whatever the shape is (notes/assumptions/15.md). -/
def Obligations.BaseNameStripsOneSuffix : Prop :=
  (∀ name base : Key,
    (baseName name = some base ↔ name = base ++ ['.', 'w', 'e', 'i', 'g', 'h', 't']) ∧
    (baseName name = some base →
      [name, base ++ ['.', 's', 'c', 'a', 'l', 'e', 's'], base ++ ['.', 'b', 'i', 'a', 's', 'e', 's']].Nodup)) ∧
  (∀ (t : TensorView) (s : State), (∀ base : Key, t.name ≠ base ++ ['.', 'w', 'e', 'i', 'g', 'h', 't']) →
    ∀ map, runHostOp (.convert map t) s = .refused (.noWeightSuffix t.name)) ∧
  baseName "blk.0.attn_q.weight".toList = some "blk.0.attn_q".toList ∧
  baseName "a.weight.weight".toList = some "a.weight".toList ∧ baseName ".weight".toList = some [] ∧
  baseName "x.Weight".toList = none

/-- R231, R292: literal insertion: what was in the map stays, in place; the new part is the entries before the first
colliding key; a reported key was present; without a collision all are inserted; and keys stay unique. -/
def Obligations.InsertionNeverOverwrites : Prop :=
  ∀ (map map' : NameMap) (entries : List (Key × Tensor)), ∀ r : Option Key, insertEntries false map entries = (map', r) →
    (∃ pre post, entries = pre ++ post ∧ map' = map ++ pre ∧
      (r = none → post = []) ∧ (∀ key, r = some key → ∃ v tl, post = (key, v) :: tl ∧ key ∈ map'.map (·.1))) ∧
    ((map.map (·.1)).Nodup → (map'.map (·.1)).Nodup)

/-- R232: staged insertion: on a collision the map is unchanged and the key reported is the one literal insertion
reports; without one the two agree. -/
def Obligations.AtomicInsertionIsAllOrNothing : Prop :=
  ∀ (map : NameMap) (entries : List (Key × Tensor)),
    (insertEntries true map entries).2 = (insertEntries false map entries).2 ∧
    ((insertEntries true map entries).2 ≠ none → (insertEntries true map entries).1 = map) ∧
    ((insertEntries true map entries).2 = none → insertEntries true map entries = (map ++ entries, none))

/-- R222, R237: CONVERT of a tensor with a bad last dimension or an unsupported type is rejected before anything is
allocated or bound: one report, the shape tested first, and nothing else changes.
Model's own: the ".weight" test comes before both (notes/assumptions/15.md). -/
def Obligations.ConvertRejectsBeforeAllocation : Prop :=
  ∀ (map : MapHandle) (t : TensorView) (base : Key) (last : Nat) (s : State), baseName t.name = some base →
    t.shape.getLast? = some last →
    (last % 32 ≠ 0 → runHostOp (.convert map t) s =
      .next { s with reports := s.reports ++ [.incompatibleShape t.name t.shape] }) ∧
    (last % 32 = 0 → t.quantType ≠ 2 → t.quantType ≠ 3 → t.quantType ≠ 8 → runHostOp (.convert map t) s =
      .next { s with reports := s.reports ++ [.unsupportedType t.name] })

/-- R227, R234, R281: after WAIT: on ERR the host reports the record with the tensor its TAG stands for, and acknowledges,
inserting nothing; on DONE it goes on to INSERT; with neither it runs the tensor again. While BUSY it only polls.
Model's own: the reads of the record and the report are one host step (notes/assumptions/25.md), how a TAG is looked up (19),
and the rerun after a reset (15). -/
def Obligations.CollectFollowsStatus : Prop :=
  ∀ (map : MapHandle) (t : TensorView) (wshape : List Nat) (rest : List HostOp) (s : State),
    s.prog = .collect map t :: rest → weightShape t.quantType t.shape = some wshape →
    (s.busy = true → hostTurn s = .next s) ∧
    (s.busy = false → s.err = true → hostTurn s = .next { s with
      reports := s.reports ++ [.engineError s.errorRecord (s.tensorOf s.tag)], prog := .regWrite 0x00 2 :: rest }) ∧
    (∀ (name : Key) (shape : List Nat) (older : List (Word × Key × List Nat)),
      s.issued = (s.tag, name, shape) :: older → s.tensorOf s.tag = some (name, shape)) ∧
    (s.busy = false → s.err = false → s.done = true → hostTurn s = .next { s with
      prog := .insert map t.name wshape (scaleShape t.shape) .weights :: rest }) ∧
    (s.busy = false → s.err = false → s.done = false → hostTurn s = .next { s with prog := .convert map t :: rest })

/-- R228, R230, R231, R235: with nobody else to move, INSERT puts the three containers into the map it was given under the
three keys in the order weights, scales, biases; at the first key that is present in that map it reports that key, stops, and
leaves the earlier insertions committed. Model's own: one insertion is one host step, and an entry is a snapshot
(notes/assumptions/15.md). -/
def Obligations.InsertStagesCommitInOrder : Prop :=
  ∀ (map : MapHandle) (name base : Key) (wshape sshape : List Nat) (s : State), baseName name = some base →
    s.fsm = .idle → s.sched = [] → s.prog = [.insert map name wshape sshape .weights] →
    let old := lookupMap s.maps map
    let keys := old.map (·.1)
    let kS : Key := base ++ ['.', 's', 'c', 'a', 'l', 'e', 's']
    let kB : Key := base ++ ['.', 'b', 'i', 'a', 's', 'e', 's']
    let eW : Key × Tensor := (name, { shape := wshape, elem := .u32, storage := s.wSpace })
    let eS : Key × Tensor := (kS, { shape := sshape, elem := .f16, storage := s.sSpace })
    let eB : Key × Tensor := (kB, { shape := sshape, elem := .f16, storage := s.bSpace })
    (name ∉ keys → kS ∉ keys → kB ∉ keys →
      Sys2Proof.core.run 3 s = .next { s with maps := setMap s.maps map (old ++ [eW, eS, eB]), prog := [] }) ∧
    (name ∈ keys → Sys2Proof.core.run 1 s =
      .next { s with prog := [], reports := s.reports ++ [.duplicateKey name name] }) ∧
    (name ∉ keys → kS ∈ keys → Sys2Proof.core.run 2 s = .next { s with
      maps := setMap s.maps map (old ++ [eW]), prog := [], reports := s.reports ++ [.duplicateKey kS name] }) ∧
    (name ∉ keys → kS ∉ keys → kB ∈ keys → Sys2Proof.core.run 3 s = .next { s with
      maps := setMap s.maps map (old ++ [eW, eS]), prog := [], reports := s.reports ++ [.duplicateKey kB name] })

/-- R86, R182, R226: a DEC line issued while BUSY = 0 and ERR = 0 leaves its operands in the descriptor registers and a
job at CHECK; issued while ERR = 1 its writes are ignored.
Model's own: the line is a host action that expands in one step (notes/assumptions/6.md); the mark `flagsChosen`, which the
line's FLAGS write sets and a line without one leaves (23). -/
def Obligations.DecLineLaunchesItsDescriptor : Prop :=
  ∀ (q g o l : Word) (lit : Option Bool) (s : State), s.fsm = .idle → s.sched = [] → s.prog = [.dec q lit g o l] →
    (s.err = false → Sys2Proof.core.run (6 + lit.toList.length) s = .next { s with
      qtype := q, lit := lit.getD s.lit, lastdim := l, outer := o, tag := g
      flagsChosen := lit.isSome || s.flagsChosen, done := false, fsm := .check, prog := [] }) ∧
    (s.err = true → Sys2Proof.core.run (6 + lit.toList.length) s = .next { s with prog := [] })

/-- R51, R189, R280, R281: a reset that falls inside STORE after its first `k` writes, in the order scale, bias, words
ascending, leaves exactly these in memory, each one whole, and nothing beyond block BIDX; after all of them the memory is
that of the finished STORE, with no DONE; in every other state it is a plain reset. Model's own: the cut as a turn of its own
(notes/assumptions/10.md). -/
def Obligations.ResetInStoreLeavesAPrefix : Prop :=
  ∀ (s : State) (ts : List Turn) (k : Nat), s.sched = .resetInStore k :: ts →
    (s.fsm ≠ .store → step s = .next ({ s with sched := ts } : State).resetEvent) ∧
    (s.fsm = .store → SpacesCanonical s → s.wpbk.toNat ≤ 8 → s.sSpace.holds 2 (s.bidx.toNat + 1) = true →
      s.bSpace.holds 2 (s.bidx.toNat + 1) = true → s.wSpace.holds 4 (s.bidx.toNat * s.wpbk.toNat + s.wpbk.toNat) = true →
      ∃ t, step s = .next t ∧ t.fsm = .idle ∧ t.done = false ∧ t.err = false ∧ t.errcode = 0 ∧
        t.qtype = 0 ∧ t.lit = false ∧ t.lastdim = 0 ∧ t.outer = 0 ∧ t.tag = 0 ∧
        t.maps = s.maps ∧ t.prog = s.prog ∧ t.sched = ts ∧ t.reads = s.reads ∧ t.reports = s.reports ∧ t.issued = s.issued ∧
        OnlyBlockWritten s t s.latch s.bidx.toNat ∧
        t.sSpace.halfAt s.bidx.toNat = (if 1 ≤ k then s.scale else s.sSpace.halfAt s.bidx.toNat) ∧
        t.bSpace.halfAt s.bidx.toNat = (if 2 ≤ k then s.bias else s.bSpace.halfAt s.bidx.toNat) ∧
        (∀ j : Fin 8, j.val < s.wpbk.toNat → t.wSpace.wordAt (s.bidx.toNat * s.wpbk.toNat + j.val) =
          if j.val + 2 < k then repack32 s.out j else s.wSpace.wordAt (s.bidx.toNat * s.wpbk.toNat + j.val)) ∧
        (2 + s.wpbk.toNat ≤ k → ∃ u, engineTurn s = .next u ∧
          t.sSpace = u.sSpace ∧ t.bSpace = u.bSpace ∧ t.wSpace = u.wSpace))

/-- R220, R222 to R227: CONVERT of a tensor whose checks pass queues the four BINDs, the descriptor writes, START and the
poll, with OUTER the product of the other dimensions, FLAGS for Q4_1 only, and containers that hold exactly the job's elements;
and the host can then name the tensor by its TAG. A dimension that does not fit 32 bits (U8) and an empty shape (U7) are
refused. Model's own: the queue of host actions (notes/assumptions/15.md) and the list of TAGs (19). -/
def Obligations.ConvertQueuesItsLaunch : Prop :=
  ∀ (map : MapHandle) (t : TensorView) (base : Key) (s : State), baseName t.name = some base →
    (t.shape = [] → runHostOp (.convert map t) s = .refused (.emptyShape t.name)) ∧
    ∀ (lead : List Nat) (last : Nat), t.shape = lead ++ [last] → last % 32 = 0 →
      t.quantType = 2 ∨ t.quantType = 3 ∨ t.quantType = 8 →
      let blocks := lead.prod * (last / 32)
      let words := blocks * (if t.quantType = 8 then 8 else 4)
      (2 ^ 32 ≤ last ∨ 2 ^ 32 ≤ lead.prod → runHostOp (.convert map t) s = .refused (.dimensionTooWide t.name)) ∧
      (last < 2 ^ 32 → lead.prod < 2 ^ 32 →
        blockCount (BitVec.ofNat 32 last) (BitVec.ofNat 32 lead.prod) = blocks ∧
        ∃ u, runHostOp (.convert map t) s = .next u ∧ u.tensorOf t.tag = some (t.name, t.shape) ∧
          u = { s with
            issued := (t.tag, t.name, t.shape) :: s.issued
            prog :=
              [.bind .src (.bytes t.rawBytes), .bind .w (.fresh (4 * words)), .bind .s (.fresh (2 * blocks)),
                .bind .b (.fresh (2 * blocks)), .regWrite 0x1C t.tag, .regWrite 0x18 (BitVec.ofNat 32 lead.prod),
                .regWrite 0x14 (BitVec.ofNat 32 last)]
              ++ (if t.quantType = 3 then [.regWrite 0x10 (if t.lit then 1 else 0)] else [])
              ++ [.regWrite 0x0C t.quantType, .regWrite 0x00 1, .collect map t] ++ s.prog })

/-- R235, R228: the map is passed: replacing the map of one handle leaves every other as it was, and no step of anybody
changes a map but an INSERT that was given that map. Model's own: the handle (notes/assumptions/24.md). -/
def Obligations.OnlyItsOwnInsertChangesAMap : Prop :=
  (∀ (maps : List (MapHandle × NameMap)) (h h' : MapHandle) (m : NameMap),
    lookupMap (setMap maps h m) h' = if h' = h then m else lookupMap maps h') ∧
  (∀ (s t : State) (h : MapHandle), step s = .next t → lookupMap t.maps h ≠ lookupMap s.maps h →
    ∃ name w z stage rest, s.prog = .insert h name w z stage :: rest)

/-- R283 (P4), R291, R29: a FLAGS write serves one job. Every CHECK that answers takes the mark away, whether the job goes on, is
done or is in error; a reset clears it; ACK and START keep it; only a host's FLAGS write while the registers are unlocked sets
it; and a Q4_1 job gets past CHECK only with it. Model's own: the mark `flagsChosen` (notes/assumptions/23.md). -/
def Obligations.FlagsWriteServesOneJob : Prop :=
  (∀ s t : State, s.fsm = .check → engineTurn s = .next t → t.flagsChosen = false) ∧
  (∀ s t : State, s.fsm = .check → s.qtype = 3 → engineTurn s = .next t → t.fsm = .fetch → s.flagsChosen = true) ∧
  (∀ s : State, s.resetEvent.flagsChosen = false) ∧
  (∀ (a : Bool) (r : BitVec 30) (s t : State), exec (.start a r) s = .next t ∨ exec (.ack r) s = .next t →
    t.flagsChosen = s.flagsChosen) ∧
  (∀ s t : State, step s = .next t → s.flagsChosen = false → t.flagsChosen = true →
    s.locked = false ∧ ∃ v rest, s.prog = .regWrite 0x10 v :: rest)
end

