-- ==== Sys2Proof/Laws/Memory.lean ====
section
/-! SUPPORT. Memory: what a byte reads as after a write, and that every operation keeps the canonical form. -/

namespace Sys2Proof.Machine

@[simp] theorem Memory.peek_nil (a : Nat) : Memory.peek [] a = Config.unlistedByte := rfl

@[simp] theorem Memory.peek_cons (k : Nat) (v : Byte) (m : Memory) (a : Nat) :
    Memory.peek ((k, v) :: m) a = if k = a then v else Memory.peek m a := rfl

/-- Below its least address a canonical memory lists nothing. -/
theorem Memory.peek_below {lo : Nat} {m : Memory} (h : Memory.wfFrom lo m = true) {a : Nat} (ha : a < lo) :
    Memory.peek m a = Config.unlistedByte := by
  induction m generalizing lo with
  | nil => rfl
  | cons c m ih =>
    obtain ⟨k, v⟩ := c
    simp only [Memory.wfFrom, Bool.and_eq_true, decide_eq_true_eq, bne_iff_ne] at h
    rw [Memory.peek_cons, if_neg (by omega), ih h.2 (by omega)]

theorem Memory.wfFrom_mono {lo lo' : Nat} {m : Memory} (h : Memory.wfFrom lo m = true) (hle : lo' ≤ lo) :
    Memory.wfFrom lo' m = true := by
  cases m with
  | nil => rfl
  | cons c m =>
    simp only [Memory.wfFrom, Bool.and_eq_true, decide_eq_true_eq, bne_iff_ne] at h ⊢
    exact ⟨⟨hle.trans h.1.1, h.1.2⟩, h.2⟩

theorem Memory.put_wfFrom {lo a : Nat} {v : Byte} {m : Memory} (h : Memory.wfFrom (a + 1) m = true) (hlo : lo ≤ a) :
    Memory.wfFrom lo (Memory.put a v m) = true := by
  unfold Memory.put
  split
  · exact Memory.wfFrom_mono h (by omega)
  · simp [Memory.wfFrom, *]

theorem Memory.peek_put (a : Nat) (v : Byte) {m : Memory} (h : Memory.wfFrom (a + 1) m = true) (x : Nat) :
    Memory.peek (Memory.put a v m) x = if x = a then v else Memory.peek m x := by
  unfold Memory.put
  split
  · rename_i hv
    split
    · subst_vars; exact Memory.peek_below h (by omega)
    · rfl
  · simp [Memory.peek_cons, eq_comm]

/-- A write of one byte keeps the canonical form. -/
theorem Memory.poke_wfFrom {lo a : Nat} {v : Byte} {m : Memory} (h : Memory.wfFrom lo m = true) (hlo : lo ≤ a) :
    Memory.wfFrom lo (Memory.poke m a v) = true := by
  induction m generalizing lo with
  | nil => exact Memory.put_wfFrom rfl hlo
  | cons c m ih =>
    obtain ⟨k, x⟩ := c
    simp only [Memory.wfFrom, Bool.and_eq_true, decide_eq_true_eq, bne_iff_ne] at h
    unfold Memory.poke
    split
    · exact Memory.put_wfFrom (by simp [Memory.wfFrom, h.1.2, h.2]; omega) hlo
    · split
      · subst_vars; exact Memory.put_wfFrom h.2 hlo
      · simp [Memory.wfFrom, h.1.1, h.1.2, ih h.2 (by omega)]

theorem Memory.poke_wf {m : Memory} (h : m.wf = true) (a : Nat) (v : Byte) : Memory.wf (Memory.poke m a v) = true :=
  Memory.poke_wfFrom h (Nat.zero_le _)

theorem Memory.peek_poke_from {lo : Nat} {m : Memory} (h : Memory.wfFrom lo m = true) (a : Nat) (v : Byte) (x : Nat) :
    Memory.peek (Memory.poke m a v) x = if x = a then v else Memory.peek m x := by
  induction m generalizing lo with
  | nil => exact Memory.peek_put a v rfl x
  | cons c m ih =>
    obtain ⟨k, y⟩ := c
    simp only [Memory.wfFrom, Bool.and_eq_true, decide_eq_true_eq, bne_iff_ne] at h
    unfold Memory.poke
    split
    · exact Memory.peek_put a v (by simp [Memory.wfFrom, h.1.2, h.2]; omega) x
    · split
      · rename_i hak
        subst hak
        rw [Memory.peek_put a v h.2, Memory.peek_cons]
        by_cases hx : x = a
        · simp [hx]
        · rw [if_neg hx, if_neg (Ne.symm hx), if_neg hx]
      · rw [Memory.peek_cons, Memory.peek_cons, ih h.2]
        by_cases hk : k = x
        · rw [if_pos hk, if_pos hk, if_neg (by omega)]
        · rw [if_neg hk, if_neg hk]

/-- What a byte reads as after a write of one byte to a canonical memory. -/
theorem Memory.peek_poke {m : Memory} (h : m.wf = true) (a : Nat) (v : Byte) (x : Nat) :
    Memory.peek (Memory.poke m a v) x = if x = a then v else Memory.peek m x := Memory.peek_poke_from h a v x

theorem Memory.pokeList_wf {m : Memory} (h : m.wf = true) (a : Nat) (bs : List Byte) :
    Memory.wf (Memory.pokeList m a bs) = true := by
  induction bs generalizing m a with
  | nil => exact h
  | cons b bs ih => exact ih (Memory.poke_wf h a b) (a + 1)

/-- What a byte reads as after a write of consecutive bytes. -/
theorem Memory.peek_pokeList {m : Memory} (h : m.wf = true) (a : Nat) (bs : List Byte) (x : Nat) :
    Memory.peek (Memory.pokeList m a bs) x =
      if a ≤ x ∧ x < a + bs.length then bs.getD (x - a) 0 else Memory.peek m x := by
  induction bs generalizing m a with
  | nil => rw [if_neg (by simp only [List.length_nil]; omega)]; rfl
  | cons b bs ih =>
    show Memory.peek (Memory.pokeList (Memory.poke m a b) (a + 1) bs) x = _
    rw [ih (Memory.poke_wf h a b) (a + 1), Memory.peek_poke h]
    simp only [List.length_cons]
    by_cases hx : x = a
    · subst hx
      rw [if_neg (by omega), if_pos rfl, if_pos (by omega)]; simp
    · by_cases hi : a + 1 ≤ x ∧ x < a + 1 + bs.length
      · rw [if_pos hi, if_pos (by omega), show x - a = (x - (a + 1)) + 1 by omega]; simp
      · rw [if_neg hi, if_neg hx, if_neg (by omega)]

/-- Every listed address of a poked memory is the poked one or was listed before. -/
theorem Memory.mem_poke {m : Memory} {a : Nat} {v : Byte} {c : Host.Cell} (h : c ∈ Memory.poke m a v) :
    c.1 = a ∨ c ∈ m := by
  induction m with
  | nil => simp only [Memory.poke, Memory.put] at h; split at h <;> simp_all
  | cons d m ih =>
    obtain ⟨k, x⟩ := d
    simp only [Memory.poke, Memory.put] at h
    split_ifs at h <;> simp only [List.mem_cons] at h ⊢ <;> grind

theorem Memory.mem_pokeList {m : Memory} {a : Nat} {bs : List Byte} {c : Host.Cell}
    (h : c ∈ Memory.pokeList m a bs) : (a ≤ c.1 ∧ c.1 < a + bs.length) ∨ c ∈ m := by
  induction bs generalizing m a with
  | nil => exact .inr h
  | cons b bs ih =>
    rcases ih h with h' | h'
    · exact .inl (by simp only [List.length_cons]; omega)
    · rcases Memory.mem_poke h' with h'' | h''
      · exact .inl (by simp only [List.length_cons]; omega)
      · exact .inr h''

theorem Space.wf_iff (sp : Space) :
    sp.wf = true ↔ Memory.wf sp.cells = true ∧ ∀ c ∈ sp.cells, c.1 < sp.extent := by
  simp [Space.wf]

@[simp] theorem Space.pokeBytes_extent (sp : Space) (a : Nat) (bs : List Byte) :
    (sp.pokeBytes a bs).extent = sp.extent := rfl

@[simp] theorem Space.pokeHalf_extent (sp : Space) (i : Nat) (v : Half) : (sp.pokeHalf i v).extent = sp.extent := rfl

@[simp] theorem Space.pokeWord_extent (sp : Space) (i : Nat) (v : Word) : (sp.pokeWord i v).extent = sp.extent := rfl

/-- A write inside the extent keeps a space canonical. -/
theorem Space.pokeBytes_wf {sp : Space} (h : sp.wf = true) {a : Nat} {bs : List Byte}
    (hin : a + bs.length ≤ sp.extent) : (sp.pokeBytes a bs).wf = true := by
  rw [Space.wf_iff] at h ⊢
  refine ⟨Memory.pokeList_wf h.1 a bs, fun c hc => ?_⟩
  rcases Memory.mem_pokeList hc with hc | hc
  · simp only [Space.pokeBytes_extent]; omega
  · exact h.2 c hc

theorem Space.pokeHalf_wf {sp : Space} (h : sp.wf = true) {i : Nat} (v : Half) (hin : sp.holds 2 (i + 1) = true) :
    (sp.pokeHalf i v).wf = true :=
  Space.pokeBytes_wf h (by simp only [Space.holds, decide_eq_true_eq] at hin; simp [halfBytes]; omega)

theorem Space.pokeWord_wf {sp : Space} (h : sp.wf = true) {i : Nat} (v : Word) (hin : sp.holds 4 (i + 1) = true) :
    (sp.pokeWord i v).wf = true :=
  Space.pokeBytes_wf h (by simp only [Space.holds, decide_eq_true_eq] at hin; simp [wordBytes]; omega)

theorem Space.ofBytes_wf (bs : List Byte) : (Space.ofBytes bs).wf = true := by
  rw [Space.wf_iff]
  refine ⟨Memory.pokeList_wf rfl 0 bs, fun c hc => ?_⟩
  rcases Memory.mem_pokeList hc with hc | hc
  · simpa [Space.ofBytes] using hc.2
  · simp at hc

theorem Space.fresh_wf (n : Nat) : (Space.fresh n).wf = true := rfl

theorem Buffer.toSpace_wf (b : Buffer) : b.toSpace.wf = true := by
  cases b with
  | bytes c => exact Space.ofBytes_wf c
  | fresh n => exact Space.fresh_wf n

/-- What a byte of a canonical space reads as after a write of consecutive bytes. -/
theorem Space.peek_pokeBytes {sp : Space} (h : sp.wf = true) (a : Nat) (bs : List Byte) (x : Nat) :
    (sp.pokeBytes a bs).peek x = if a ≤ x ∧ x < a + bs.length then bs.getD (x - a) 0 else sp.peek x :=
  Memory.peek_pokeList ((Space.wf_iff sp).1 h).1 a bs x

/-- The W writes of STORE keep the extent. -/
@[simp] theorem storeWords_extent (sp : Space) (base wpbk : Nat) (out : Vector Byte 32) :
    (storeWords sp base wpbk out).extent = sp.extent := by
  unfold storeWords
  generalize List.finRange 8 = ks
  induction ks generalizing sp with
  | nil => rfl
  | cons k ks ih => rw [List.foldl_cons, ih]; split <;> rfl

/-- The W writes of STORE keep W canonical where its elements are bound. -/
theorem storeWords_wf {sp : Space} (h : sp.wf = true) {base wpbk : Nat} (out : Vector Byte 32)
    (hin : sp.holds 4 (base + wpbk) = true) : (storeWords sp base wpbk out).wf = true := by
  unfold storeWords
  generalize List.finRange 8 = ks
  induction ks generalizing sp with
  | nil => exact h
  | cons k ks ih =>
    rw [List.foldl_cons]
    split
    · rename_i hk
      have hk' : sp.holds 4 (base + k.val + 1) = true := by
        simp only [Space.holds, decide_eq_true_eq] at hin ⊢; omega
      exact ih (Space.pokeWord_wf h _ hk') hin
    · exact ih h hin

end Sys2Proof.Machine
end

