-- ==== Sys2Proof/Laws/State.lean ====
section
/-! SUPPORT. One lemma per field per named update of State, each true by definition (the spaces of
`storeBlock` by its arithmetic). -/

namespace Sys2Proof.Machine

@[simp] theorem State.raise_qtype (s : State) (e : EngineError) : (s.raise e).qtype = s.qtype := rfl
@[simp] theorem State.raise_lit (s : State) (e : EngineError) : (s.raise e).lit = s.lit := rfl
@[simp] theorem State.raise_lastdim (s : State) (e : EngineError) : (s.raise e).lastdim = s.lastdim := rfl
@[simp] theorem State.raise_outer (s : State) (e : EngineError) : (s.raise e).outer = s.outer := rfl
@[simp] theorem State.raise_tag (s : State) (e : EngineError) : (s.raise e).tag = s.tag := rfl
@[simp] theorem State.raise_done (s : State) (e : EngineError) : (s.raise e).done = s.done := rfl
@[simp] theorem State.raise_err (s : State) (e : EngineError) : (s.raise e).err = true := rfl
@[simp] theorem State.raise_errcode (s : State) (e : EngineError) : (s.raise e).errcode = e.code := rfl
@[simp] theorem State.raise_fsm (s : State) (e : EngineError) : (s.raise e).fsm = .idle := rfl
@[simp] theorem State.raise_kind (s : State) (e : EngineError) : (s.raise e).kind = s.kind := rfl
@[simp] theorem State.raise_litl (s : State) (e : EngineError) : (s.raise e).litl = s.litl := rfl
@[simp] theorem State.raise_bs (s : State) (e : EngineError) : (s.raise e).bs = s.bs := rfl
@[simp] theorem State.raise_coff (s : State) (e : EngineError) : (s.raise e).coff = s.coff := rfl
@[simp] theorem State.raise_ob (s : State) (e : EngineError) : (s.raise e).ob = s.ob := rfl
@[simp] theorem State.raise_wpbk (s : State) (e : EngineError) : (s.raise e).wpbk = s.wpbk := rfl
@[simp] theorem State.raise_nblk (s : State) (e : EngineError) : (s.raise e).nblk = s.nblk := rfl
@[simp] theorem State.raise_bidx (s : State) (e : EngineError) : (s.raise e).bidx = s.bidx := rfl
@[simp] theorem State.raise_blk (s : State) (e : EngineError) : (s.raise e).blk = s.blk := rfl
@[simp] theorem State.raise_scale (s : State) (e : EngineError) : (s.raise e).scale = s.scale := rfl
@[simp] theorem State.raise_bias (s : State) (e : EngineError) : (s.raise e).bias = s.bias := rfl
@[simp] theorem State.raise_out (s : State) (e : EngineError) : (s.raise e).out = s.out := rfl
@[simp] theorem State.raise_srcSpace (s : State) (e : EngineError) : (s.raise e).srcSpace = s.srcSpace := rfl
@[simp] theorem State.raise_wSpace (s : State) (e : EngineError) : (s.raise e).wSpace = s.wSpace := rfl
@[simp] theorem State.raise_sSpace (s : State) (e : EngineError) : (s.raise e).sSpace = s.sSpace := rfl
@[simp] theorem State.raise_bSpace (s : State) (e : EngineError) : (s.raise e).bSpace = s.bSpace := rfl
@[simp] theorem State.raise_maps (s : State) (e : EngineError) : (s.raise e).maps = s.maps := rfl
@[simp] theorem State.raise_flagsChosen (s : State) (e : EngineError) : (s.raise e).flagsChosen = s.flagsChosen := rfl
@[simp] theorem State.raise_prog (s : State) (e : EngineError) : (s.raise e).prog = s.prog := rfl
@[simp] theorem State.raise_sched (s : State) (e : EngineError) : (s.raise e).sched = s.sched := rfl
@[simp] theorem State.raise_reads (s : State) (e : EngineError) : (s.raise e).reads = s.reads := rfl
@[simp] theorem State.raise_reports (s : State) (e : EngineError) : (s.raise e).reports = s.reports := rfl
@[simp] theorem State.raise_issued (s : State) (e : EngineError) : (s.raise e).issued = s.issued := rfl

@[simp] theorem State.takeFlagsWrite_qtype (s : State) : s.takeFlagsWrite.qtype = s.qtype := rfl
@[simp] theorem State.takeFlagsWrite_lit (s : State) : s.takeFlagsWrite.lit = s.lit := rfl
@[simp] theorem State.takeFlagsWrite_lastdim (s : State) : s.takeFlagsWrite.lastdim = s.lastdim := rfl
@[simp] theorem State.takeFlagsWrite_outer (s : State) : s.takeFlagsWrite.outer = s.outer := rfl
@[simp] theorem State.takeFlagsWrite_tag (s : State) : s.takeFlagsWrite.tag = s.tag := rfl
@[simp] theorem State.takeFlagsWrite_done (s : State) : s.takeFlagsWrite.done = s.done := rfl
@[simp] theorem State.takeFlagsWrite_err (s : State) : s.takeFlagsWrite.err = s.err := rfl
@[simp] theorem State.takeFlagsWrite_errcode (s : State) : s.takeFlagsWrite.errcode = s.errcode := rfl
@[simp] theorem State.takeFlagsWrite_fsm (s : State) : s.takeFlagsWrite.fsm = s.fsm := rfl
@[simp] theorem State.takeFlagsWrite_kind (s : State) : s.takeFlagsWrite.kind = s.kind := rfl
@[simp] theorem State.takeFlagsWrite_litl (s : State) : s.takeFlagsWrite.litl = s.litl := rfl
@[simp] theorem State.takeFlagsWrite_bs (s : State) : s.takeFlagsWrite.bs = s.bs := rfl
@[simp] theorem State.takeFlagsWrite_coff (s : State) : s.takeFlagsWrite.coff = s.coff := rfl
@[simp] theorem State.takeFlagsWrite_ob (s : State) : s.takeFlagsWrite.ob = s.ob := rfl
@[simp] theorem State.takeFlagsWrite_wpbk (s : State) : s.takeFlagsWrite.wpbk = s.wpbk := rfl
@[simp] theorem State.takeFlagsWrite_nblk (s : State) : s.takeFlagsWrite.nblk = s.nblk := rfl
@[simp] theorem State.takeFlagsWrite_bidx (s : State) : s.takeFlagsWrite.bidx = s.bidx := rfl
@[simp] theorem State.takeFlagsWrite_blk (s : State) : s.takeFlagsWrite.blk = s.blk := rfl
@[simp] theorem State.takeFlagsWrite_scale (s : State) : s.takeFlagsWrite.scale = s.scale := rfl
@[simp] theorem State.takeFlagsWrite_bias (s : State) : s.takeFlagsWrite.bias = s.bias := rfl
@[simp] theorem State.takeFlagsWrite_out (s : State) : s.takeFlagsWrite.out = s.out := rfl
@[simp] theorem State.takeFlagsWrite_srcSpace (s : State) : s.takeFlagsWrite.srcSpace = s.srcSpace := rfl
@[simp] theorem State.takeFlagsWrite_wSpace (s : State) : s.takeFlagsWrite.wSpace = s.wSpace := rfl
@[simp] theorem State.takeFlagsWrite_sSpace (s : State) : s.takeFlagsWrite.sSpace = s.sSpace := rfl
@[simp] theorem State.takeFlagsWrite_bSpace (s : State) : s.takeFlagsWrite.bSpace = s.bSpace := rfl
@[simp] theorem State.takeFlagsWrite_maps (s : State) : s.takeFlagsWrite.maps = s.maps := rfl
@[simp] theorem State.takeFlagsWrite_flagsChosen (s : State) : s.takeFlagsWrite.flagsChosen = false := rfl
@[simp] theorem State.takeFlagsWrite_prog (s : State) : s.takeFlagsWrite.prog = s.prog := rfl
@[simp] theorem State.takeFlagsWrite_sched (s : State) : s.takeFlagsWrite.sched = s.sched := rfl
@[simp] theorem State.takeFlagsWrite_reads (s : State) : s.takeFlagsWrite.reads = s.reads := rfl
@[simp] theorem State.takeFlagsWrite_reports (s : State) : s.takeFlagsWrite.reports = s.reports := rfl
@[simp] theorem State.takeFlagsWrite_issued (s : State) : s.takeFlagsWrite.issued = s.issued := rfl

@[simp] theorem State.rejectJob_qtype (s : State) (e : EngineError) : (s.rejectJob e).qtype = s.qtype := rfl
@[simp] theorem State.rejectJob_lit (s : State) (e : EngineError) : (s.rejectJob e).lit = s.lit := rfl
@[simp] theorem State.rejectJob_lastdim (s : State) (e : EngineError) : (s.rejectJob e).lastdim = s.lastdim := rfl
@[simp] theorem State.rejectJob_outer (s : State) (e : EngineError) : (s.rejectJob e).outer = s.outer := rfl
@[simp] theorem State.rejectJob_tag (s : State) (e : EngineError) : (s.rejectJob e).tag = s.tag := rfl
@[simp] theorem State.rejectJob_done (s : State) (e : EngineError) : (s.rejectJob e).done = s.done := rfl
@[simp] theorem State.rejectJob_err (s : State) (e : EngineError) : (s.rejectJob e).err = true := rfl
@[simp] theorem State.rejectJob_errcode (s : State) (e : EngineError) : (s.rejectJob e).errcode = e.code := rfl
@[simp] theorem State.rejectJob_fsm (s : State) (e : EngineError) : (s.rejectJob e).fsm = .idle := rfl
@[simp] theorem State.rejectJob_kind (s : State) (e : EngineError) : (s.rejectJob e).kind = s.kind := rfl
@[simp] theorem State.rejectJob_litl (s : State) (e : EngineError) : (s.rejectJob e).litl = s.litl := rfl
@[simp] theorem State.rejectJob_bs (s : State) (e : EngineError) : (s.rejectJob e).bs = s.bs := rfl
@[simp] theorem State.rejectJob_coff (s : State) (e : EngineError) : (s.rejectJob e).coff = s.coff := rfl
@[simp] theorem State.rejectJob_ob (s : State) (e : EngineError) : (s.rejectJob e).ob = s.ob := rfl
@[simp] theorem State.rejectJob_wpbk (s : State) (e : EngineError) : (s.rejectJob e).wpbk = s.wpbk := rfl
@[simp] theorem State.rejectJob_nblk (s : State) (e : EngineError) : (s.rejectJob e).nblk = s.nblk := rfl
@[simp] theorem State.rejectJob_bidx (s : State) (e : EngineError) : (s.rejectJob e).bidx = s.bidx := rfl
@[simp] theorem State.rejectJob_blk (s : State) (e : EngineError) : (s.rejectJob e).blk = s.blk := rfl
@[simp] theorem State.rejectJob_scale (s : State) (e : EngineError) : (s.rejectJob e).scale = s.scale := rfl
@[simp] theorem State.rejectJob_bias (s : State) (e : EngineError) : (s.rejectJob e).bias = s.bias := rfl
@[simp] theorem State.rejectJob_out (s : State) (e : EngineError) : (s.rejectJob e).out = s.out := rfl
@[simp] theorem State.rejectJob_srcSpace (s : State) (e : EngineError) : (s.rejectJob e).srcSpace = s.srcSpace := rfl
@[simp] theorem State.rejectJob_wSpace (s : State) (e : EngineError) : (s.rejectJob e).wSpace = s.wSpace := rfl
@[simp] theorem State.rejectJob_sSpace (s : State) (e : EngineError) : (s.rejectJob e).sSpace = s.sSpace := rfl
@[simp] theorem State.rejectJob_bSpace (s : State) (e : EngineError) : (s.rejectJob e).bSpace = s.bSpace := rfl
@[simp] theorem State.rejectJob_maps (s : State) (e : EngineError) : (s.rejectJob e).maps = s.maps := rfl
@[simp] theorem State.rejectJob_flagsChosen (s : State) (e : EngineError) : (s.rejectJob e).flagsChosen = false := rfl
@[simp] theorem State.rejectJob_prog (s : State) (e : EngineError) : (s.rejectJob e).prog = s.prog := rfl
@[simp] theorem State.rejectJob_sched (s : State) (e : EngineError) : (s.rejectJob e).sched = s.sched := rfl
@[simp] theorem State.rejectJob_reads (s : State) (e : EngineError) : (s.rejectJob e).reads = s.reads := rfl
@[simp] theorem State.rejectJob_reports (s : State) (e : EngineError) : (s.rejectJob e).reports = s.reports := rfl
@[simp] theorem State.rejectJob_issued (s : State) (e : EngineError) : (s.rejectJob e).issued = s.issued := rfl

@[simp] theorem State.acknowledge_qtype (s : State) : s.acknowledge.qtype = s.qtype := rfl
@[simp] theorem State.acknowledge_lit (s : State) : s.acknowledge.lit = s.lit := rfl
@[simp] theorem State.acknowledge_lastdim (s : State) : s.acknowledge.lastdim = s.lastdim := rfl
@[simp] theorem State.acknowledge_outer (s : State) : s.acknowledge.outer = s.outer := rfl
@[simp] theorem State.acknowledge_tag (s : State) : s.acknowledge.tag = s.tag := rfl
@[simp] theorem State.acknowledge_done (s : State) : s.acknowledge.done = false := rfl
@[simp] theorem State.acknowledge_err (s : State) : s.acknowledge.err = false := rfl
@[simp] theorem State.acknowledge_errcode (s : State) : s.acknowledge.errcode = 0 := rfl
@[simp] theorem State.acknowledge_fsm (s : State) : s.acknowledge.fsm = s.fsm := rfl
@[simp] theorem State.acknowledge_kind (s : State) : s.acknowledge.kind = s.kind := rfl
@[simp] theorem State.acknowledge_litl (s : State) : s.acknowledge.litl = s.litl := rfl
@[simp] theorem State.acknowledge_bs (s : State) : s.acknowledge.bs = s.bs := rfl
@[simp] theorem State.acknowledge_coff (s : State) : s.acknowledge.coff = s.coff := rfl
@[simp] theorem State.acknowledge_ob (s : State) : s.acknowledge.ob = s.ob := rfl
@[simp] theorem State.acknowledge_wpbk (s : State) : s.acknowledge.wpbk = s.wpbk := rfl
@[simp] theorem State.acknowledge_nblk (s : State) : s.acknowledge.nblk = s.nblk := rfl
@[simp] theorem State.acknowledge_bidx (s : State) : s.acknowledge.bidx = s.bidx := rfl
@[simp] theorem State.acknowledge_blk (s : State) : s.acknowledge.blk = s.blk := rfl
@[simp] theorem State.acknowledge_scale (s : State) : s.acknowledge.scale = s.scale := rfl
@[simp] theorem State.acknowledge_bias (s : State) : s.acknowledge.bias = s.bias := rfl
@[simp] theorem State.acknowledge_out (s : State) : s.acknowledge.out = s.out := rfl
@[simp] theorem State.acknowledge_srcSpace (s : State) : s.acknowledge.srcSpace = s.srcSpace := rfl
@[simp] theorem State.acknowledge_wSpace (s : State) : s.acknowledge.wSpace = s.wSpace := rfl
@[simp] theorem State.acknowledge_sSpace (s : State) : s.acknowledge.sSpace = s.sSpace := rfl
@[simp] theorem State.acknowledge_bSpace (s : State) : s.acknowledge.bSpace = s.bSpace := rfl
@[simp] theorem State.acknowledge_maps (s : State) : s.acknowledge.maps = s.maps := rfl
@[simp] theorem State.acknowledge_flagsChosen (s : State) : s.acknowledge.flagsChosen = s.flagsChosen := rfl
@[simp] theorem State.acknowledge_prog (s : State) : s.acknowledge.prog = s.prog := rfl
@[simp] theorem State.acknowledge_sched (s : State) : s.acknowledge.sched = s.sched := rfl
@[simp] theorem State.acknowledge_reads (s : State) : s.acknowledge.reads = s.reads := rfl
@[simp] theorem State.acknowledge_reports (s : State) : s.acknowledge.reports = s.reports := rfl
@[simp] theorem State.acknowledge_issued (s : State) : s.acknowledge.issued = s.issued := rfl

@[simp] theorem State.setUpJob_qtype (s : State) (l : Latch) (n : Nat) : (s.setUpJob l n).qtype = s.qtype := rfl
@[simp] theorem State.setUpJob_lit (s : State) (l : Latch) (n : Nat) : (s.setUpJob l n).lit = s.lit := rfl
@[simp] theorem State.setUpJob_lastdim (s : State) (l : Latch) (n : Nat) : (s.setUpJob l n).lastdim = s.lastdim := rfl
@[simp] theorem State.setUpJob_outer (s : State) (l : Latch) (n : Nat) : (s.setUpJob l n).outer = s.outer := rfl
@[simp] theorem State.setUpJob_tag (s : State) (l : Latch) (n : Nat) : (s.setUpJob l n).tag = s.tag := rfl
@[simp] theorem State.setUpJob_done (s : State) (l : Latch) (n : Nat) : (s.setUpJob l n).done = s.done := rfl
@[simp] theorem State.setUpJob_err (s : State) (l : Latch) (n : Nat) : (s.setUpJob l n).err = s.err := rfl
@[simp] theorem State.setUpJob_errcode (s : State) (l : Latch) (n : Nat) : (s.setUpJob l n).errcode = s.errcode := rfl
@[simp] theorem State.setUpJob_fsm (s : State) (l : Latch) (n : Nat) : (s.setUpJob l n).fsm = s.fsm := rfl
@[simp] theorem State.setUpJob_kind (s : State) (l : Latch) (n : Nat) : (s.setUpJob l n).kind = l.kind := rfl
@[simp] theorem State.setUpJob_litl (s : State) (l : Latch) (n : Nat) : (s.setUpJob l n).litl = l.litl := rfl
@[simp] theorem State.setUpJob_bs (s : State) (l : Latch) (n : Nat) : (s.setUpJob l n).bs = l.bs := rfl
@[simp] theorem State.setUpJob_coff (s : State) (l : Latch) (n : Nat) : (s.setUpJob l n).coff = l.coff := rfl
@[simp] theorem State.setUpJob_ob (s : State) (l : Latch) (n : Nat) : (s.setUpJob l n).ob = l.ob := rfl
@[simp] theorem State.setUpJob_wpbk (s : State) (l : Latch) (n : Nat) : (s.setUpJob l n).wpbk = l.wpbk := rfl
@[simp] theorem State.setUpJob_nblk (s : State) (l : Latch) (n : Nat) :
    (s.setUpJob l n).nblk = BitVec.ofNat 64 n := rfl
@[simp] theorem State.setUpJob_bidx (s : State) (l : Latch) (n : Nat) : (s.setUpJob l n).bidx = 0 := rfl
@[simp] theorem State.setUpJob_blk (s : State) (l : Latch) (n : Nat) : (s.setUpJob l n).blk = s.blk := rfl
@[simp] theorem State.setUpJob_scale (s : State) (l : Latch) (n : Nat) : (s.setUpJob l n).scale = s.scale := rfl
@[simp] theorem State.setUpJob_bias (s : State) (l : Latch) (n : Nat) : (s.setUpJob l n).bias = s.bias := rfl
@[simp] theorem State.setUpJob_out (s : State) (l : Latch) (n : Nat) : (s.setUpJob l n).out = s.out := rfl
@[simp] theorem State.setUpJob_srcSpace (s : State) (l : Latch) (n : Nat) :
    (s.setUpJob l n).srcSpace = s.srcSpace := rfl
@[simp] theorem State.setUpJob_wSpace (s : State) (l : Latch) (n : Nat) : (s.setUpJob l n).wSpace = s.wSpace := rfl
@[simp] theorem State.setUpJob_sSpace (s : State) (l : Latch) (n : Nat) : (s.setUpJob l n).sSpace = s.sSpace := rfl
@[simp] theorem State.setUpJob_bSpace (s : State) (l : Latch) (n : Nat) : (s.setUpJob l n).bSpace = s.bSpace := rfl
@[simp] theorem State.setUpJob_maps (s : State) (l : Latch) (n : Nat) : (s.setUpJob l n).maps = s.maps := rfl
@[simp] theorem State.setUpJob_flagsChosen (s : State) (l : Latch) (n : Nat) :
    (s.setUpJob l n).flagsChosen = false := rfl
@[simp] theorem State.setUpJob_prog (s : State) (l : Latch) (n : Nat) : (s.setUpJob l n).prog = s.prog := rfl
@[simp] theorem State.setUpJob_sched (s : State) (l : Latch) (n : Nat) : (s.setUpJob l n).sched = s.sched := rfl
@[simp] theorem State.setUpJob_reads (s : State) (l : Latch) (n : Nat) : (s.setUpJob l n).reads = s.reads := rfl
@[simp] theorem State.setUpJob_reports (s : State) (l : Latch) (n : Nat) : (s.setUpJob l n).reports = s.reports := rfl
@[simp] theorem State.setUpJob_issued (s : State) (l : Latch) (n : Nat) : (s.setUpJob l n).issued = s.issued := rfl

@[simp] theorem headerImplicit_qtype (k : Nat) (s : State) : (headerImplicit k s).qtype = s.qtype := rfl
@[simp] theorem headerImplicit_lit (k : Nat) (s : State) : (headerImplicit k s).lit = s.lit := rfl
@[simp] theorem headerImplicit_lastdim (k : Nat) (s : State) : (headerImplicit k s).lastdim = s.lastdim := rfl
@[simp] theorem headerImplicit_outer (k : Nat) (s : State) : (headerImplicit k s).outer = s.outer := rfl
@[simp] theorem headerImplicit_tag (k : Nat) (s : State) : (headerImplicit k s).tag = s.tag := rfl
@[simp] theorem headerImplicit_done (k : Nat) (s : State) : (headerImplicit k s).done = s.done := rfl
@[simp] theorem headerImplicit_err (k : Nat) (s : State) : (headerImplicit k s).err = s.err := rfl
@[simp] theorem headerImplicit_errcode (k : Nat) (s : State) : (headerImplicit k s).errcode = s.errcode := rfl
@[simp] theorem headerImplicit_fsm (k : Nat) (s : State) : (headerImplicit k s).fsm = .codes := rfl
@[simp] theorem headerImplicit_kind (k : Nat) (s : State) : (headerImplicit k s).kind = s.kind := rfl
@[simp] theorem headerImplicit_litl (k : Nat) (s : State) : (headerImplicit k s).litl = s.litl := rfl
@[simp] theorem headerImplicit_bs (k : Nat) (s : State) : (headerImplicit k s).bs = s.bs := rfl
@[simp] theorem headerImplicit_coff (k : Nat) (s : State) : (headerImplicit k s).coff = s.coff := rfl
@[simp] theorem headerImplicit_ob (k : Nat) (s : State) : (headerImplicit k s).ob = s.ob := rfl
@[simp] theorem headerImplicit_wpbk (k : Nat) (s : State) : (headerImplicit k s).wpbk = s.wpbk := rfl
@[simp] theorem headerImplicit_nblk (k : Nat) (s : State) : (headerImplicit k s).nblk = s.nblk := rfl
@[simp] theorem headerImplicit_bidx (k : Nat) (s : State) : (headerImplicit k s).bidx = s.bidx := rfl
@[simp] theorem headerImplicit_blk (k : Nat) (s : State) : (headerImplicit k s).blk = s.blk := rfl
@[simp] theorem headerImplicit_scale (k : Nat) (s : State) : (headerImplicit k s).scale = fld16 s.blk 0 := rfl
@[simp] theorem headerImplicit_bias (k : Nat) (s : State) :
    (headerImplicit k s).bias = biasgen (fld16 s.blk 0) k := rfl
@[simp] theorem headerImplicit_out (k : Nat) (s : State) : (headerImplicit k s).out = s.out := rfl
@[simp] theorem headerImplicit_srcSpace (k : Nat) (s : State) : (headerImplicit k s).srcSpace = s.srcSpace := rfl
@[simp] theorem headerImplicit_wSpace (k : Nat) (s : State) : (headerImplicit k s).wSpace = s.wSpace := rfl
@[simp] theorem headerImplicit_sSpace (k : Nat) (s : State) : (headerImplicit k s).sSpace = s.sSpace := rfl
@[simp] theorem headerImplicit_bSpace (k : Nat) (s : State) : (headerImplicit k s).bSpace = s.bSpace := rfl
@[simp] theorem headerImplicit_maps (k : Nat) (s : State) : (headerImplicit k s).maps = s.maps := rfl
@[simp] theorem headerImplicit_flagsChosen (k : Nat) (s : State) :
    (headerImplicit k s).flagsChosen = s.flagsChosen := rfl
@[simp] theorem headerImplicit_prog (k : Nat) (s : State) : (headerImplicit k s).prog = s.prog := rfl
@[simp] theorem headerImplicit_sched (k : Nat) (s : State) : (headerImplicit k s).sched = s.sched := rfl
@[simp] theorem headerImplicit_reads (k : Nat) (s : State) : (headerImplicit k s).reads = s.reads := rfl
@[simp] theorem headerImplicit_reports (k : Nat) (s : State) : (headerImplicit k s).reports = s.reports := rfl
@[simp] theorem headerImplicit_issued (k : Nat) (s : State) : (headerImplicit k s).issued = s.issued := rfl

@[simp] theorem headerExplicit_qtype (s : State) : (headerExplicit s).qtype = s.qtype := rfl
@[simp] theorem headerExplicit_lit (s : State) : (headerExplicit s).lit = s.lit := rfl
@[simp] theorem headerExplicit_lastdim (s : State) : (headerExplicit s).lastdim = s.lastdim := rfl
@[simp] theorem headerExplicit_outer (s : State) : (headerExplicit s).outer = s.outer := rfl
@[simp] theorem headerExplicit_tag (s : State) : (headerExplicit s).tag = s.tag := rfl
@[simp] theorem headerExplicit_done (s : State) : (headerExplicit s).done = s.done := rfl
@[simp] theorem headerExplicit_err (s : State) : (headerExplicit s).err = s.err := rfl
@[simp] theorem headerExplicit_errcode (s : State) : (headerExplicit s).errcode = s.errcode := rfl
@[simp] theorem headerExplicit_fsm (s : State) : (headerExplicit s).fsm = .codes := rfl
@[simp] theorem headerExplicit_kind (s : State) : (headerExplicit s).kind = s.kind := rfl
@[simp] theorem headerExplicit_litl (s : State) : (headerExplicit s).litl = s.litl := rfl
@[simp] theorem headerExplicit_bs (s : State) : (headerExplicit s).bs = s.bs := rfl
@[simp] theorem headerExplicit_coff (s : State) : (headerExplicit s).coff = s.coff := rfl
@[simp] theorem headerExplicit_ob (s : State) : (headerExplicit s).ob = s.ob := rfl
@[simp] theorem headerExplicit_wpbk (s : State) : (headerExplicit s).wpbk = s.wpbk := rfl
@[simp] theorem headerExplicit_nblk (s : State) : (headerExplicit s).nblk = s.nblk := rfl
@[simp] theorem headerExplicit_bidx (s : State) : (headerExplicit s).bidx = s.bidx := rfl
@[simp] theorem headerExplicit_blk (s : State) : (headerExplicit s).blk = s.blk := rfl
@[simp] theorem headerExplicit_scale (s : State) : (headerExplicit s).scale = fld16 s.blk 0 := rfl
@[simp] theorem headerExplicit_bias (s : State) : (headerExplicit s).bias = fld16 s.blk 2 := rfl
@[simp] theorem headerExplicit_out (s : State) : (headerExplicit s).out = s.out := rfl
@[simp] theorem headerExplicit_srcSpace (s : State) : (headerExplicit s).srcSpace = s.srcSpace := rfl
@[simp] theorem headerExplicit_wSpace (s : State) : (headerExplicit s).wSpace = s.wSpace := rfl
@[simp] theorem headerExplicit_sSpace (s : State) : (headerExplicit s).sSpace = s.sSpace := rfl
@[simp] theorem headerExplicit_bSpace (s : State) : (headerExplicit s).bSpace = s.bSpace := rfl
@[simp] theorem headerExplicit_maps (s : State) : (headerExplicit s).maps = s.maps := rfl
@[simp] theorem headerExplicit_flagsChosen (s : State) : (headerExplicit s).flagsChosen = s.flagsChosen := rfl
@[simp] theorem headerExplicit_prog (s : State) : (headerExplicit s).prog = s.prog := rfl
@[simp] theorem headerExplicit_sched (s : State) : (headerExplicit s).sched = s.sched := rfl
@[simp] theorem headerExplicit_reads (s : State) : (headerExplicit s).reads = s.reads := rfl
@[simp] theorem headerExplicit_reports (s : State) : (headerExplicit s).reports = s.reports := rfl
@[simp] theorem headerExplicit_issued (s : State) : (headerExplicit s).issued = s.issued := rfl

@[simp] theorem codesLowBit_qtype (s : State) : (codesLowBit s).qtype = s.qtype := rfl
@[simp] theorem codesLowBit_lit (s : State) : (codesLowBit s).lit = s.lit := rfl
@[simp] theorem codesLowBit_lastdim (s : State) : (codesLowBit s).lastdim = s.lastdim := rfl
@[simp] theorem codesLowBit_outer (s : State) : (codesLowBit s).outer = s.outer := rfl
@[simp] theorem codesLowBit_tag (s : State) : (codesLowBit s).tag = s.tag := rfl
@[simp] theorem codesLowBit_done (s : State) : (codesLowBit s).done = s.done := rfl
@[simp] theorem codesLowBit_err (s : State) : (codesLowBit s).err = s.err := rfl
@[simp] theorem codesLowBit_errcode (s : State) : (codesLowBit s).errcode = s.errcode := rfl
@[simp] theorem codesLowBit_fsm (s : State) : (codesLowBit s).fsm = .store := rfl
@[simp] theorem codesLowBit_kind (s : State) : (codesLowBit s).kind = s.kind := rfl
@[simp] theorem codesLowBit_litl (s : State) : (codesLowBit s).litl = s.litl := rfl
@[simp] theorem codesLowBit_bs (s : State) : (codesLowBit s).bs = s.bs := rfl
@[simp] theorem codesLowBit_coff (s : State) : (codesLowBit s).coff = s.coff := rfl
@[simp] theorem codesLowBit_ob (s : State) : (codesLowBit s).ob = s.ob := rfl
@[simp] theorem codesLowBit_wpbk (s : State) : (codesLowBit s).wpbk = s.wpbk := rfl
@[simp] theorem codesLowBit_nblk (s : State) : (codesLowBit s).nblk = s.nblk := rfl
@[simp] theorem codesLowBit_bidx (s : State) : (codesLowBit s).bidx = s.bidx := rfl
@[simp] theorem codesLowBit_blk (s : State) : (codesLowBit s).blk = s.blk := rfl
@[simp] theorem codesLowBit_scale (s : State) : (codesLowBit s).scale = s.scale := rfl
@[simp] theorem codesLowBit_bias (s : State) : (codesLowBit s).bias = s.bias := rfl
@[simp] theorem codesLowBit_out (s : State) : (codesLowBit s).out = outLowBit s := rfl
@[simp] theorem codesLowBit_srcSpace (s : State) : (codesLowBit s).srcSpace = s.srcSpace := rfl
@[simp] theorem codesLowBit_wSpace (s : State) : (codesLowBit s).wSpace = s.wSpace := rfl
@[simp] theorem codesLowBit_sSpace (s : State) : (codesLowBit s).sSpace = s.sSpace := rfl
@[simp] theorem codesLowBit_bSpace (s : State) : (codesLowBit s).bSpace = s.bSpace := rfl
@[simp] theorem codesLowBit_maps (s : State) : (codesLowBit s).maps = s.maps := rfl
@[simp] theorem codesLowBit_flagsChosen (s : State) : (codesLowBit s).flagsChosen = s.flagsChosen := rfl
@[simp] theorem codesLowBit_prog (s : State) : (codesLowBit s).prog = s.prog := rfl
@[simp] theorem codesLowBit_sched (s : State) : (codesLowBit s).sched = s.sched := rfl
@[simp] theorem codesLowBit_reads (s : State) : (codesLowBit s).reads = s.reads := rfl
@[simp] theorem codesLowBit_reports (s : State) : (codesLowBit s).reports = s.reports := rfl
@[simp] theorem codesLowBit_issued (s : State) : (codesLowBit s).issued = s.issued := rfl

@[simp] theorem codesByte_qtype (s : State) : (codesByte s).qtype = s.qtype := rfl
@[simp] theorem codesByte_lit (s : State) : (codesByte s).lit = s.lit := rfl
@[simp] theorem codesByte_lastdim (s : State) : (codesByte s).lastdim = s.lastdim := rfl
@[simp] theorem codesByte_outer (s : State) : (codesByte s).outer = s.outer := rfl
@[simp] theorem codesByte_tag (s : State) : (codesByte s).tag = s.tag := rfl
@[simp] theorem codesByte_done (s : State) : (codesByte s).done = s.done := rfl
@[simp] theorem codesByte_err (s : State) : (codesByte s).err = s.err := rfl
@[simp] theorem codesByte_errcode (s : State) : (codesByte s).errcode = s.errcode := rfl
@[simp] theorem codesByte_fsm (s : State) : (codesByte s).fsm = .store := rfl
@[simp] theorem codesByte_kind (s : State) : (codesByte s).kind = s.kind := rfl
@[simp] theorem codesByte_litl (s : State) : (codesByte s).litl = s.litl := rfl
@[simp] theorem codesByte_bs (s : State) : (codesByte s).bs = s.bs := rfl
@[simp] theorem codesByte_coff (s : State) : (codesByte s).coff = s.coff := rfl
@[simp] theorem codesByte_ob (s : State) : (codesByte s).ob = s.ob := rfl
@[simp] theorem codesByte_wpbk (s : State) : (codesByte s).wpbk = s.wpbk := rfl
@[simp] theorem codesByte_nblk (s : State) : (codesByte s).nblk = s.nblk := rfl
@[simp] theorem codesByte_bidx (s : State) : (codesByte s).bidx = s.bidx := rfl
@[simp] theorem codesByte_blk (s : State) : (codesByte s).blk = s.blk := rfl
@[simp] theorem codesByte_scale (s : State) : (codesByte s).scale = s.scale := rfl
@[simp] theorem codesByte_bias (s : State) : (codesByte s).bias = s.bias := rfl
@[simp] theorem codesByte_out (s : State) : (codesByte s).out = outByte s := rfl
@[simp] theorem codesByte_srcSpace (s : State) : (codesByte s).srcSpace = s.srcSpace := rfl
@[simp] theorem codesByte_wSpace (s : State) : (codesByte s).wSpace = s.wSpace := rfl
@[simp] theorem codesByte_sSpace (s : State) : (codesByte s).sSpace = s.sSpace := rfl
@[simp] theorem codesByte_bSpace (s : State) : (codesByte s).bSpace = s.bSpace := rfl
@[simp] theorem codesByte_maps (s : State) : (codesByte s).maps = s.maps := rfl
@[simp] theorem codesByte_flagsChosen (s : State) : (codesByte s).flagsChosen = s.flagsChosen := rfl
@[simp] theorem codesByte_prog (s : State) : (codesByte s).prog = s.prog := rfl
@[simp] theorem codesByte_sched (s : State) : (codesByte s).sched = s.sched := rfl
@[simp] theorem codesByte_reads (s : State) : (codesByte s).reads = s.reads := rfl
@[simp] theorem codesByte_reports (s : State) : (codesByte s).reports = s.reports := rfl
@[simp] theorem codesByte_issued (s : State) : (codesByte s).issued = s.issued := rfl

@[simp] theorem State.storePrefix_qtype (s : State) (k : Nat) : (s.storePrefix k).qtype = s.qtype := rfl
@[simp] theorem State.storePrefix_lit (s : State) (k : Nat) : (s.storePrefix k).lit = s.lit := rfl
@[simp] theorem State.storePrefix_lastdim (s : State) (k : Nat) : (s.storePrefix k).lastdim = s.lastdim := rfl
@[simp] theorem State.storePrefix_outer (s : State) (k : Nat) : (s.storePrefix k).outer = s.outer := rfl
@[simp] theorem State.storePrefix_tag (s : State) (k : Nat) : (s.storePrefix k).tag = s.tag := rfl
@[simp] theorem State.storePrefix_done (s : State) (k : Nat) : (s.storePrefix k).done = s.done := rfl
@[simp] theorem State.storePrefix_err (s : State) (k : Nat) : (s.storePrefix k).err = s.err := rfl
@[simp] theorem State.storePrefix_errcode (s : State) (k : Nat) : (s.storePrefix k).errcode = s.errcode := rfl
@[simp] theorem State.storePrefix_fsm (s : State) (k : Nat) : (s.storePrefix k).fsm = s.fsm := rfl
@[simp] theorem State.storePrefix_kind (s : State) (k : Nat) : (s.storePrefix k).kind = s.kind := rfl
@[simp] theorem State.storePrefix_litl (s : State) (k : Nat) : (s.storePrefix k).litl = s.litl := rfl
@[simp] theorem State.storePrefix_bs (s : State) (k : Nat) : (s.storePrefix k).bs = s.bs := rfl
@[simp] theorem State.storePrefix_coff (s : State) (k : Nat) : (s.storePrefix k).coff = s.coff := rfl
@[simp] theorem State.storePrefix_ob (s : State) (k : Nat) : (s.storePrefix k).ob = s.ob := rfl
@[simp] theorem State.storePrefix_wpbk (s : State) (k : Nat) : (s.storePrefix k).wpbk = s.wpbk := rfl
@[simp] theorem State.storePrefix_nblk (s : State) (k : Nat) : (s.storePrefix k).nblk = s.nblk := rfl
@[simp] theorem State.storePrefix_bidx (s : State) (k : Nat) : (s.storePrefix k).bidx = s.bidx := rfl
@[simp] theorem State.storePrefix_blk (s : State) (k : Nat) : (s.storePrefix k).blk = s.blk := rfl
@[simp] theorem State.storePrefix_scale (s : State) (k : Nat) : (s.storePrefix k).scale = s.scale := rfl
@[simp] theorem State.storePrefix_bias (s : State) (k : Nat) : (s.storePrefix k).bias = s.bias := rfl
@[simp] theorem State.storePrefix_out (s : State) (k : Nat) : (s.storePrefix k).out = s.out := rfl
@[simp] theorem State.storePrefix_srcSpace (s : State) (k : Nat) : (s.storePrefix k).srcSpace = s.srcSpace := rfl
@[simp] theorem State.storePrefix_maps (s : State) (k : Nat) : (s.storePrefix k).maps = s.maps := rfl
@[simp] theorem State.storePrefix_flagsChosen (s : State) (k : Nat) : (s.storePrefix k).flagsChosen = s.flagsChosen := rfl
@[simp] theorem State.storePrefix_prog (s : State) (k : Nat) : (s.storePrefix k).prog = s.prog := rfl
@[simp] theorem State.storePrefix_sched (s : State) (k : Nat) : (s.storePrefix k).sched = s.sched := rfl
@[simp] theorem State.storePrefix_reads (s : State) (k : Nat) : (s.storePrefix k).reads = s.reads := rfl
@[simp] theorem State.storePrefix_reports (s : State) (k : Nat) : (s.storePrefix k).reports = s.reports := rfl
@[simp] theorem State.storePrefix_issued (s : State) (k : Nat) : (s.storePrefix k).issued = s.issued := rfl

@[simp] theorem State.storeBlock_qtype (s : State) : s.storeBlock.qtype = s.qtype := rfl
@[simp] theorem State.storeBlock_lit (s : State) : s.storeBlock.lit = s.lit := rfl
@[simp] theorem State.storeBlock_lastdim (s : State) : s.storeBlock.lastdim = s.lastdim := rfl
@[simp] theorem State.storeBlock_outer (s : State) : s.storeBlock.outer = s.outer := rfl
@[simp] theorem State.storeBlock_tag (s : State) : s.storeBlock.tag = s.tag := rfl
@[simp] theorem State.storeBlock_done (s : State) : s.storeBlock.done = s.done := rfl
@[simp] theorem State.storeBlock_err (s : State) : s.storeBlock.err = s.err := rfl
@[simp] theorem State.storeBlock_errcode (s : State) : s.storeBlock.errcode = s.errcode := rfl
@[simp] theorem State.storeBlock_fsm (s : State) : s.storeBlock.fsm = s.fsm := rfl
@[simp] theorem State.storeBlock_kind (s : State) : s.storeBlock.kind = s.kind := rfl
@[simp] theorem State.storeBlock_litl (s : State) : s.storeBlock.litl = s.litl := rfl
@[simp] theorem State.storeBlock_bs (s : State) : s.storeBlock.bs = s.bs := rfl
@[simp] theorem State.storeBlock_coff (s : State) : s.storeBlock.coff = s.coff := rfl
@[simp] theorem State.storeBlock_ob (s : State) : s.storeBlock.ob = s.ob := rfl
@[simp] theorem State.storeBlock_wpbk (s : State) : s.storeBlock.wpbk = s.wpbk := rfl
@[simp] theorem State.storeBlock_nblk (s : State) : s.storeBlock.nblk = s.nblk := rfl
@[simp] theorem State.storeBlock_bidx (s : State) : s.storeBlock.bidx = s.bidx + 1 := rfl
@[simp] theorem State.storeBlock_blk (s : State) : s.storeBlock.blk = s.blk := rfl
@[simp] theorem State.storeBlock_scale (s : State) : s.storeBlock.scale = s.scale := rfl
@[simp] theorem State.storeBlock_bias (s : State) : s.storeBlock.bias = s.bias := rfl
@[simp] theorem State.storeBlock_out (s : State) : s.storeBlock.out = s.out := rfl
@[simp] theorem State.storeBlock_srcSpace (s : State) : s.storeBlock.srcSpace = s.srcSpace := rfl
@[simp] theorem State.storeBlock_wSpace (s : State) :
    s.storeBlock.wSpace = storeWords s.wSpace s.wordBase s.wpbk.toNat s.out := by
  simp [State.storeBlock, State.storePrefix]
@[simp] theorem State.storeBlock_sSpace (s : State) :
    s.storeBlock.sSpace = s.sSpace.pokeHalf s.bidx.toNat s.scale := by
  simp [State.storeBlock, State.storePrefix]
@[simp] theorem State.storeBlock_bSpace (s : State) :
    s.storeBlock.bSpace = s.bSpace.pokeHalf s.bidx.toNat s.bias := by
  simp [State.storeBlock, State.storePrefix]
@[simp] theorem State.storeBlock_maps (s : State) : s.storeBlock.maps = s.maps := rfl
@[simp] theorem State.storeBlock_flagsChosen (s : State) : s.storeBlock.flagsChosen = s.flagsChosen := rfl
@[simp] theorem State.storeBlock_prog (s : State) : s.storeBlock.prog = s.prog := rfl
@[simp] theorem State.storeBlock_sched (s : State) : s.storeBlock.sched = s.sched := rfl
@[simp] theorem State.storeBlock_reads (s : State) : s.storeBlock.reads = s.reads := rfl
@[simp] theorem State.storeBlock_reports (s : State) : s.storeBlock.reports = s.reports := rfl
@[simp] theorem State.storeBlock_issued (s : State) : s.storeBlock.issued = s.issued := rfl

@[simp] theorem State.placeDescriptor_qtype (s : State) (nbits w : Nat) :
    (s.placeDescriptor nbits w).qtype = tableWord nbits w 0 := rfl
@[simp] theorem State.placeDescriptor_lit (s : State) (nbits w : Nat) :
    (s.placeDescriptor nbits w).lit = (tableWord nbits w 1).getLsbD 0 := rfl
@[simp] theorem State.placeDescriptor_lastdim (s : State) (nbits w : Nat) :
    (s.placeDescriptor nbits w).lastdim = tableWord nbits w 2 := rfl
@[simp] theorem State.placeDescriptor_outer (s : State) (nbits w : Nat) :
    (s.placeDescriptor nbits w).outer = tableWord nbits w 3 := rfl
@[simp] theorem State.placeDescriptor_tag (s : State) (nbits w : Nat) :
    (s.placeDescriptor nbits w).tag = tableWord nbits w 4 := rfl
@[simp] theorem State.placeDescriptor_done (s : State) (nbits w : Nat) :
    (s.placeDescriptor nbits w).done = s.done := rfl
@[simp] theorem State.placeDescriptor_err (s : State) (nbits w : Nat) : (s.placeDescriptor nbits w).err = s.err := rfl
@[simp] theorem State.placeDescriptor_errcode (s : State) (nbits w : Nat) :
    (s.placeDescriptor nbits w).errcode = s.errcode := rfl
@[simp] theorem State.placeDescriptor_fsm (s : State) (nbits w : Nat) :
    (s.placeDescriptor nbits w).fsm = .check := rfl
@[simp] theorem State.placeDescriptor_kind (s : State) (nbits w : Nat) :
    (s.placeDescriptor nbits w).kind = s.kind := rfl
@[simp] theorem State.placeDescriptor_litl (s : State) (nbits w : Nat) :
    (s.placeDescriptor nbits w).litl = s.litl := rfl
@[simp] theorem State.placeDescriptor_bs (s : State) (nbits w : Nat) : (s.placeDescriptor nbits w).bs = s.bs := rfl
@[simp] theorem State.placeDescriptor_coff (s : State) (nbits w : Nat) :
    (s.placeDescriptor nbits w).coff = s.coff := rfl
@[simp] theorem State.placeDescriptor_ob (s : State) (nbits w : Nat) : (s.placeDescriptor nbits w).ob = s.ob := rfl
@[simp] theorem State.placeDescriptor_wpbk (s : State) (nbits w : Nat) :
    (s.placeDescriptor nbits w).wpbk = s.wpbk := rfl
@[simp] theorem State.placeDescriptor_nblk (s : State) (nbits w : Nat) :
    (s.placeDescriptor nbits w).nblk = s.nblk := rfl
@[simp] theorem State.placeDescriptor_bidx (s : State) (nbits w : Nat) :
    (s.placeDescriptor nbits w).bidx = s.bidx := rfl
@[simp] theorem State.placeDescriptor_blk (s : State) (nbits w : Nat) : (s.placeDescriptor nbits w).blk = s.blk := rfl
@[simp] theorem State.placeDescriptor_scale (s : State) (nbits w : Nat) :
    (s.placeDescriptor nbits w).scale = s.scale := rfl
@[simp] theorem State.placeDescriptor_bias (s : State) (nbits w : Nat) :
    (s.placeDescriptor nbits w).bias = s.bias := rfl
@[simp] theorem State.placeDescriptor_out (s : State) (nbits w : Nat) : (s.placeDescriptor nbits w).out = s.out := rfl
@[simp] theorem State.placeDescriptor_srcSpace (s : State) (nbits w : Nat) :
    (s.placeDescriptor nbits w).srcSpace = s.srcSpace := rfl
@[simp] theorem State.placeDescriptor_wSpace (s : State) (nbits w : Nat) :
    (s.placeDescriptor nbits w).wSpace = s.wSpace := rfl
@[simp] theorem State.placeDescriptor_sSpace (s : State) (nbits w : Nat) :
    (s.placeDescriptor nbits w).sSpace = s.sSpace := rfl
@[simp] theorem State.placeDescriptor_bSpace (s : State) (nbits w : Nat) :
    (s.placeDescriptor nbits w).bSpace = s.bSpace := rfl
@[simp] theorem State.placeDescriptor_maps (s : State) (nbits w : Nat) : (s.placeDescriptor nbits w).maps = s.maps := rfl
@[simp] theorem State.placeDescriptor_flagsChosen (s : State) (nbits w : Nat) :
    (s.placeDescriptor nbits w).flagsChosen = true := rfl
@[simp] theorem State.placeDescriptor_prog (s : State) (nbits w : Nat) :
    (s.placeDescriptor nbits w).prog = s.prog := rfl
@[simp] theorem State.placeDescriptor_sched (s : State) (nbits w : Nat) :
    (s.placeDescriptor nbits w).sched = s.sched := rfl
@[simp] theorem State.placeDescriptor_reads (s : State) (nbits w : Nat) :
    (s.placeDescriptor nbits w).reads = s.reads := rfl
@[simp] theorem State.placeDescriptor_reports (s : State) (nbits w : Nat) :
    (s.placeDescriptor nbits w).reports = s.reports := rfl
@[simp] theorem State.placeDescriptor_issued (s : State) (nbits w : Nat) :
    (s.placeDescriptor nbits w).issued = s.issued := rfl

@[simp] theorem State.resetEvent_qtype (s : State) : s.resetEvent.qtype = State.reset.qtype := rfl
@[simp] theorem State.resetEvent_lit (s : State) : s.resetEvent.lit = State.reset.lit := rfl
@[simp] theorem State.resetEvent_lastdim (s : State) : s.resetEvent.lastdim = State.reset.lastdim := rfl
@[simp] theorem State.resetEvent_outer (s : State) : s.resetEvent.outer = State.reset.outer := rfl
@[simp] theorem State.resetEvent_tag (s : State) : s.resetEvent.tag = State.reset.tag := rfl
@[simp] theorem State.resetEvent_done (s : State) : s.resetEvent.done = State.reset.done := rfl
@[simp] theorem State.resetEvent_err (s : State) : s.resetEvent.err = State.reset.err := rfl
@[simp] theorem State.resetEvent_errcode (s : State) : s.resetEvent.errcode = State.reset.errcode := rfl
@[simp] theorem State.resetEvent_fsm (s : State) : s.resetEvent.fsm = State.reset.fsm := rfl
@[simp] theorem State.resetEvent_kind (s : State) : s.resetEvent.kind = State.reset.kind := rfl
@[simp] theorem State.resetEvent_litl (s : State) : s.resetEvent.litl = State.reset.litl := rfl
@[simp] theorem State.resetEvent_bs (s : State) : s.resetEvent.bs = State.reset.bs := rfl
@[simp] theorem State.resetEvent_coff (s : State) : s.resetEvent.coff = State.reset.coff := rfl
@[simp] theorem State.resetEvent_ob (s : State) : s.resetEvent.ob = State.reset.ob := rfl
@[simp] theorem State.resetEvent_wpbk (s : State) : s.resetEvent.wpbk = State.reset.wpbk := rfl
@[simp] theorem State.resetEvent_nblk (s : State) : s.resetEvent.nblk = State.reset.nblk := rfl
@[simp] theorem State.resetEvent_bidx (s : State) : s.resetEvent.bidx = State.reset.bidx := rfl
@[simp] theorem State.resetEvent_blk (s : State) : s.resetEvent.blk = State.reset.blk := rfl
@[simp] theorem State.resetEvent_scale (s : State) : s.resetEvent.scale = State.reset.scale := rfl
@[simp] theorem State.resetEvent_bias (s : State) : s.resetEvent.bias = State.reset.bias := rfl
@[simp] theorem State.resetEvent_out (s : State) : s.resetEvent.out = State.reset.out := rfl
@[simp] theorem State.resetEvent_srcSpace (s : State) : s.resetEvent.srcSpace = s.srcSpace := rfl
@[simp] theorem State.resetEvent_wSpace (s : State) : s.resetEvent.wSpace = s.wSpace := rfl
@[simp] theorem State.resetEvent_sSpace (s : State) : s.resetEvent.sSpace = s.sSpace := rfl
@[simp] theorem State.resetEvent_bSpace (s : State) : s.resetEvent.bSpace = s.bSpace := rfl
@[simp] theorem State.resetEvent_maps (s : State) : s.resetEvent.maps = s.maps := rfl
@[simp] theorem State.resetEvent_flagsChosen (s : State) : s.resetEvent.flagsChosen = false := rfl
@[simp] theorem State.resetEvent_prog (s : State) : s.resetEvent.prog = s.prog := rfl
@[simp] theorem State.resetEvent_sched (s : State) : s.resetEvent.sched = s.sched := rfl
@[simp] theorem State.resetEvent_reads (s : State) : s.resetEvent.reads = s.reads := rfl
@[simp] theorem State.resetEvent_reports (s : State) : s.resetEvent.reports = s.reports := rfl
@[simp] theorem State.resetEvent_issued (s : State) : s.resetEvent.issued = s.issued := rfl

/-- A launch that is accepted or not leaves everything but DONE and FSM. -/
theorem State.launch_cases (s : State) :
    (s.err = true ∧ s.launch = s) ∨ (s.err = false ∧ s.launch = { s with done := false, fsm := .check }) := by
  unfold State.launch; cases h : s.err <;> simp

/-- The end of a block leaves everything but DONE and FSM. -/
theorem State.endBlock_cases (s : State) :
    (s.bidx = s.nblk ∧ s.endBlock = { s with done := true, fsm := .idle }) ∨
      (s.bidx ≠ s.nblk ∧ s.endBlock = { s with fsm := .fetch }) := by
  unfold State.endBlock; by_cases h : s.bidx = s.nblk <;> simp [h]

@[simp] theorem State.setLatch_latch (s : State) (l : Latch) : (s.setLatch l).latch = l := rfl

@[simp] theorem State.setUpJob_latch (s : State) (l : Latch) (n : Nat) : (s.setUpJob l n).latch = l := rfl

theorem State.busy_iff (s : State) : s.busy = true ↔ s.fsm ≠ .idle := by simp [State.busy]

theorem State.inBlock_iff (s : State) :
    s.inBlock = true ↔ s.fsm = .fetch ∨ s.fsm = .header ∨ s.fsm = .codes ∨ s.fsm = .store := by
  unfold State.inBlock State.busy; cases s.fsm <;> simp

end Sys2Proof.Machine
end

