-- ==== Sys2Proof/Laws/Steps.lean ====
section
/-! SUPPORT. For each shared operation, once, everything it can do. -/

namespace Sys2Proof.Machine

/-- No launch premise fails exactly where the storage is bound and a Q4_1 job has its FLAGS write (R283). -/
theorem launchProblem_eq_none (s : State) (l : Latch) (n : Nat) :
    launchProblem s l n = none ↔ missingSpace s l n = none ∧ (l.kind = .q4_1 → s.flagsChosen = true) := by
  unfold launchProblem
  cases missingSpace s l n <;> simp

/-- Everything CHECK of a supported type can do. -/
theorem stepCheck_cases (l : Latch) (lastdim outer : Word) (s : State) :
    (shapeOk lastdim = false ∧ stepCheck l lastdim outer s = .next (s.rejectJob .incompatibleShape)) ∨
    (shapeOk lastdim = true ∧ blockCount lastdim outer = 0 ∧
      stepCheck l lastdim outer s = .next { s.setUpJob l 0 with done := true, fsm := .idle }) ∨
    (shapeOk lastdim = true ∧ blockCount lastdim outer ≠ 0 ∧ launchProblem s l (blockCount lastdim outer) = none ∧
      stepCheck l lastdim outer s = .next { s.setUpJob l (blockCount lastdim outer) with fsm := .fetch }) ∨
    (shapeOk lastdim = true ∧ blockCount lastdim outer ≠ 0 ∧ ∃ r,
      launchProblem s l (blockCount lastdim outer) = some r ∧ stepCheck l lastdim outer s = .refused r) := by
  unfold stepCheck
  by_cases h : shapeOk lastdim = true
  · by_cases hn : blockCount lastdim outer = 0
    · simp [h, hn]
    · cases hm : launchProblem s l (blockCount lastdim outer) <;> simp [h, hn, hm]
  · simp [h]

/-- Every CHECK that answers, with or without an error, takes the FLAGS write (R283, P4). -/
theorem stepCheck_flagsChosen {l : Latch} {lastdim outer : Word} {s t : State}
    (h : stepCheck l lastdim outer s = .next t) : t.flagsChosen = false := by
  rcases stepCheck_cases l lastdim outer s with ⟨_, e⟩ | ⟨_, _, e⟩ | ⟨_, _, _, e⟩ | ⟨_, _, _, _, e⟩ <;>
    rw [e] at h <;> cases h <;> rfl

/-- Everything FETCH can do. -/
theorem stepFetch_cases (s : State) :
    (s.bs.toNat ≤ 34 ∧ s.srcSpace.holds 1 (s.blockBase + s.bs.toNat) = true ∧ stepFetch s =
      .next { s with blk := fetchBlock s.srcSpace s.blockBase s.bs.toNat s.blk, fsm := .header }) ∨
    (s.bs.toNat ≤ 34 ∧ s.srcSpace.holds 1 (s.blockBase + s.bs.toNat) = false ∧
      stepFetch s = .refused (.unbound .src)) ∨
    (34 < s.bs.toNat ∧ stepFetch s = .fault .latchRange) := by
  unfold stepFetch
  by_cases h : 34 < s.bs.toNat
  · simp [h]
  · cases hs : s.srcSpace.holds 1 (s.blockBase + s.bs.toNat) <;> simp [h] <;> omega

/-- If STORE answers a next state, its elements are bound and the block is stored. -/
theorem stepStore_next {s t : State} (h : stepStore s = .next t) :
    s.wpbk.toNat ≤ 8 ∧ s.sSpace.holds 2 (s.bidx.toNat + 1) = true ∧ s.bSpace.holds 2 (s.bidx.toNat + 1) = true ∧
      s.wSpace.holds 4 (s.wordBase + s.wpbk.toNat) = true ∧ t = s.storeBlock.endBlock := by
  unfold stepStore at h
  split_ifs at h with h1 h2 h3 h4
  simp only [Host.Outcome.next.injEq] at h
  simp_all

/-- STORE answers a next state where its elements are bound. -/
theorem stepStore_eq_next {s : State} (h1 : s.wpbk.toNat ≤ 8) (h2 : s.sSpace.holds 2 (s.bidx.toNat + 1) = true)
    (h3 : s.bSpace.holds 2 (s.bidx.toNat + 1) = true) (h4 : s.wSpace.holds 4 (s.wordBase + s.wpbk.toNat) = true) :
    stepStore s = .next s.storeBlock.endBlock := by
  unfold stepStore
  simp [h2, h3, h4, Nat.not_lt.2 h1]

/-- No space is missing exactly where all four hold what a job of `n` blocks reaches. -/
theorem missingSpace_eq_none (s : State) (l : Latch) (n : Nat) :
    missingSpace s l n = none ↔
      s.srcSpace.holds 1 (n * l.bs.toNat) = true ∧ s.wSpace.holds 4 (n * l.wpbk.toNat) = true ∧
        s.sSpace.holds 2 n = true ∧ s.bSpace.holds 2 n = true := by
  unfold missingSpace
  split_ifs <;> simp_all

/-- A reset inside STORE that answers a next state is the reset of a prefix of a STORE that has a meaning (R281). -/
theorem cutStore_next {k : Nat} {s t : State} (h : cutStore k s = .next t) :
    (∃ u, stepStore s = .next u) ∧ t = (s.storePrefix k).resetEvent := by
  unfold cutStore at h
  split at h
  · rename_i u hu; exact ⟨⟨u, hu⟩, by simpa using h.symm⟩
  · cases h
  · cases h

/-- The prefix with all its writes is the memory of the finished STORE (R189). -/
theorem State.storePrefix_all {s : State} {k : Nat} (h : 2 + s.wpbk.toNat ≤ k) :
    (s.storePrefix k).sSpace = s.storeBlock.sSpace ∧ (s.storePrefix k).bSpace = s.storeBlock.bSpace ∧
      (s.storePrefix k).wSpace = s.storeBlock.wSpace := by
  have h1 : 1 ≤ k := by omega
  have h2 : 2 ≤ k := by omega
  have h3 : min s.wpbk.toNat (k - 2) = s.wpbk.toNat := by omega
  simp [State.storePrefix, h1, h2, h3]

/-- The prefix with no write is the state itself. -/
theorem State.storePrefix_zero (s : State) :
    (s.storePrefix 0).sSpace = s.sSpace ∧ (s.storePrefix 0).bSpace = s.bSpace ∧
      (s.storePrefix 0).wSpace = s.wSpace := by
  simp [State.storePrefix, storeWords]

/-- The block count fits 59 bits (R22). -/
theorem blockCount_lt (lastdim outer : Word) : blockCount lastdim outer < 2 ^ 59 := by
  unfold blockCount Config.blockCodes
  have h1 := lastdim.isLt
  have h2 := outer.isLt
  calc outer.toNat * (lastdim.toNat / 32) ≤ (2 ^ 32 - 1) * (2 ^ 27 - 1) := Nat.mul_le_mul (by omega) (by omega)
    _ < 2 ^ 59 := by norm_num

/-- Every row of the latch table has BS and WPBK in range. -/
theorem latchOf_range {q : Word} {b : Bool} {l : Latch} (h : latchOf q b = some l) :
    l.bs.toNat ≤ 34 ∧ l.wpbk.toNat ≤ 8 := by
  unfold latchOf at h
  split_ifs at h <;> cases h <;> decide

/-- The engine's step past CHECK, whatever operation is latched, is one of the four block steps. -/
theorem engineTurn_cases (s : State) :
    (s.fsm = .idle ∧ engineTurn s = .next s) ∨
    (s.fsm = .check ∧ (∃ l, latchOf s.qtype s.lit = some l ∧ engineTurn s = stepCheck l s.lastdim s.outer s)) ∨
    (s.fsm = .check ∧ latchOf s.qtype s.lit = none ∧ engineTurn s = .next (rejectDescriptor s)) ∨
    (s.fsm = .fetch ∧ engineTurn s = stepFetch s) ∨
    (s.fsm = .header ∧ (engineTurn s = .next (headerImplicit 3 s) ∨ engineTurn s = .next (headerExplicit s) ∨
      engineTurn s = .next (headerImplicit 7 s))) ∨
    (s.fsm = .codes ∧ (engineTurn s = .next (codesLowBit s) ∨ engineTurn s = .next (codesByte s))) ∨
    (s.fsm = .store ∧ engineTurn s = stepStore s) := by
  unfold engineTurn
  cases hf : s.fsm
  · simp
  · simp only [decode, State.descriptor, decodeDescriptor, latchOf]
    split_ifs with h1 h2 h3 h4 h5 <;>
      simp_all [exec, execDecQ40, execDecQ41, execDecQ41L, execDecQ80, runJobStep, State.flagsWord, flagBit]
  all_goals
    cases hk : s.kind <;> cases hl : s.litl <;>
      simp [State.running, hk, hl, exec, execDecQ40, execDecQ41, execDecQ41L, execDecQ80, runJobStep, hf]

/-- A step is one turn. -/
theorem step_cases (s : State) :
    (∃ t ts, s.sched = t :: ts ∧ step s = runTurn t { s with sched := ts }) ∨
      (s.sched = [] ∧ step s = runTurn s.fairTurn s) := by
  unfold step takeTurn
  cases h : s.sched <;> simp

/-- With no turn fixed in advance and no action of the host, a step is the engine's. -/
theorem step_eq_engineTurn {s : State} (h1 : s.sched = []) (h2 : s.prog = []) : step s = engineTurn s := by
  simp [step, takeTurn, h1, State.fairTurn, State.hostReady, h2, runTurn]

/-- A register access with a meaning is aligned and inside the block (R30). -/
theorem registerProblem_none {offset : Nat} (h : registerProblem offset = none) :
    offset % 4 = 0 ∧ offset < 0x20 := by
  unfold registerProblem blockEnd at h
  split_ifs at h; omega

/-- While the descriptor is locked a RegWrite changes nothing (R29). -/
theorem State.regStore_locked {s : State} (h : s.locked = true) (offset : Nat) (v : Word) :
    s.regStore offset v = s := by
  simp [State.regStore, h]

/-- A RegWrite changes the five descriptor registers and the model's mark of a FLAGS write, and nothing else. -/
theorem State.regStore_frame (s : State) (offset : Nat) (v : Word) :
    s.regStore offset v = { s with
      qtype := (s.regStore offset v).qtype, lit := (s.regStore offset v).lit, lastdim := (s.regStore offset v).lastdim
      outer := (s.regStore offset v).outer, tag := (s.regStore offset v).tag
      flagsChosen := (s.regStore offset v).flagsChosen } := by
  unfold State.regStore
  split_ifs <;> rfl

/-- Replacing a space changes the four spaces and nothing else. -/
theorem State.setSpace_frame (s : State) (id : SpaceId) (sp : Space) :
    s.setSpace id sp = { s with
      srcSpace := (s.setSpace id sp).srcSpace, wSpace := (s.setSpace id sp).wSpace
      sSpace := (s.setSpace id sp).sSpace, bSpace := (s.setSpace id sp).bSpace } := by
  cases id <;> rfl

/-- A host's element write changes the four spaces and nothing else. -/
theorem State.pokeElem_frame (s : State) (id : SpaceId) (i : Nat) (v : Word) :
    s.pokeElem id i v = { s with
      srcSpace := (s.pokeElem id i v).srcSpace, wSpace := (s.pokeElem id i v).wSpace
      sSpace := (s.pokeElem id i v).sSpace, bSpace := (s.pokeElem id i v).bSpace } := by
  cases id <;> rfl

/-- What a START does, once (R181). -/
theorem execStart_cases (a : Bool) (r : BitVec 30) (s : State) :
    (s.busy = true ∧ execStart a r s = .next s) ∨
    (s.busy = false ∧ a = true ∧
      execStart a r s = .next { s with done := false, err := false, errcode := 0, fsm := .check }) ∨
    (s.busy = false ∧ a = false ∧ s.err = true ∧ execStart a r s = .next s) ∨
    (s.busy = false ∧ a = false ∧ s.err = false ∧ execStart a r s = .next { s with done := false, fsm := .check }) := by
  unfold execStart State.launch State.acknowledge
  cases hb : s.busy <;> cases a <;> cases he : s.err <;> simp

end Sys2Proof.Machine
end

