-- ==== Sys2Proof/Laws/Host.lean ====
section
/-! SUPPORT. For each action of the host, once, everything it can do. -/

namespace Sys2Proof.Machine

/-- A word written to CTRL runs the command it decodes to, or does nothing (R12). -/
theorem ctrlWrite_cases (v : Word) (s : State) :
    (v.getLsbD 0 = true ∧ ctrlWrite v s = execStart (v.getLsbD 1) (v.extractLsb' 2 30) s) ∨
    (v.getLsbD 0 = false ∧ v.getLsbD 1 = true ∧ ctrlWrite v s = execAck (v.extractLsb' 2 30) s) ∨
    (v.getLsbD 0 = false ∧ v.getLsbD 1 = false ∧ ctrlWrite v s = .next s) := by
  simp only [ctrlWrite, decode, decodeCommand]
  cases v.getLsbD 0 <;> cases v.getLsbD 1 <;> simp only [if_true, if_false, Bool.false_eq_true, exec] <;> simp

/-- A RegWrite with a meaning is a write to CTRL or to another register (R11). -/
theorem hostRegWrite_next {offset : Nat} {v : Word} {s t : State} (h : hostRegWrite offset v s = .next t) :
    registerProblem offset = none ∧
      ((offset = ctrlOffset ∧ ctrlWrite v s = .next t) ∨ (offset ≠ ctrlOffset ∧ t = s.regStore offset v)) := by
  unfold hostRegWrite at h
  cases hp : registerProblem offset with
  | some r => simp [hp] at h
  | none =>
    simp only [hp] at h
    split at h
    · exact ⟨rfl, .inl ⟨‹_›, h⟩⟩
    · exact ⟨rfl, .inr ⟨‹_›, by simpa using h.symm⟩⟩

/-- A BIND with a meaning replaces one space, while the engine is idle (R43). -/
theorem hostBind_next {id : SpaceId} {buffer : Buffer} {s t : State} (h : hostBind id buffer s = .next t) :
    s.busy = false ∧ (id = .src → buffer.size ≤ 2 ^ Config.addressBits) ∧ t = s.setSpace id buffer.toSpace := by
  unfold hostBind at h
  split_ifs at h with h1 h2
  refine ⟨by simpa using h1, fun hid => ?_, by simpa using h.symm⟩
  by_contra hc
  exact h2 ⟨hid, by omega⟩

/-- An element read with a meaning appends what it read (R33). -/
theorem hostReadElem_next {id : SpaceId} {i : Nat} {s t : State} (h : hostReadElem id i s = .next t) :
    s.busy = false ∧ (s.space id).holds (elemBytes id) (i + 1) = true ∧
      t = { s with reads := s.reads ++ [.elem id i (s.elemAt id i)] } := by
  unfold hostReadElem at h
  split_ifs at h with h1 h2
  exact ⟨by simpa using h1, h2, by simpa using h.symm⟩

/-- An element write with a meaning writes that element (R33, R45). -/
theorem hostWriteElem_next {id : SpaceId} {i : Nat} {v : Word} {s t : State} (h : hostWriteElem id i v s = .next t) :
    s.busy = false ∧ (s.space id).holds (elemBytes id) (i + 1) = true ∧ t = s.pokeElem id i v := by
  unfold hostWriteElem at h
  split_ifs at h with h1 h2
  exact ⟨by simpa using h1, h2, by simpa using h.symm⟩

/-- A CONVERT that answers a next state reports or queues, and changes nothing else (R220, R222). -/
theorem hostConvert_next {map : MapHandle} {v : TensorView} {s t : State} (h : hostConvert map v s = .next t) :
    t = { s with prog := t.prog, reports := t.reports, issued := t.issued } ∧
      ((t.prog = s.prog ∧ t.issued = s.issued) ∨ t.reports = s.reports) := by
  unfold hostConvert at h
  split at h
  · cases h
  · cases h
  · split at h
    · cases h; exact ⟨rfl, .inl ⟨rfl, rfl⟩⟩
    · split at h
      · cases h; exact ⟨rfl, .inl ⟨rfl, rfl⟩⟩
      · split at h
        · cases h
        · cases h; exact ⟨rfl, .inr rfl⟩

/-- What follows the poll of a job changes the host's list and reports only (R227). -/
theorem hostCollect_next {map : MapHandle} {v : TensorView} {s t : State} (h : hostCollect map v s = .next t) :
    t = { s with prog := t.prog, reports := t.reports } := by
  unfold hostCollect at h
  split at h
  · cases h; rfl
  · split at h
    · split at h
      · cases h
      · cases h; rfl
    · cases h; rfl

/-- Insertion of a key that is absent appends the entry (R231). -/
theorem insertKey_eq_some {map map' : NameMap} {key : Key} {v : Tensor}
    (h : insertKey map key v = some map') : key ∉ map.map (·.1) ∧ map' = map ++ [(key, v)] := by
  unfold insertKey at h
  split_ifs at h with h1
  exact ⟨h1, by simpa using h.symm⟩

/-- Insertions keep the keys unique (R228). -/
theorem insertAll_nodup {map : NameMap} (h : (map.map (·.1)).Nodup) (entries : List (Key × Tensor)) :
    (((insertAll map entries).1).map (·.1)).Nodup := by
  induction entries generalizing map with
  | nil => exact h
  | cons e rest ih =>
    obtain ⟨key, v⟩ := e
    unfold insertAll
    cases hk : insertKey map key v with
    | none => exact h
    | some map' =>
      obtain ⟨hn, rfl⟩ := insertKey_eq_some hk
      exact ih (by
        rw [List.map_append, List.nodup_append]
        refine ⟨h, by simp, ?_⟩
        rintro a ha b hb rfl
        simp only [List.map_cons, List.map_nil, List.mem_singleton] at hb
        exact hn (hb ▸ ha))

/-- Replacing the map of one handle leaves every other as it was (R235). -/
theorem lookupMap_setMap (maps : List (MapHandle × NameMap)) (h h' : MapHandle) (m : NameMap) :
    lookupMap (setMap maps h m) h' = if h' = h then m else lookupMap maps h' := by
  induction maps with
  | nil => simp [setMap, lookupMap, eq_comm]
  | cons p rest ih =>
    obtain ⟨k, x⟩ := p
    unfold setMap
    by_cases hk : k = h
    · subst hk
      simp only [if_true, lookupMap]
      by_cases hh : k = h'
      · subst hh; simp
      · simp [hh, Ne.symm hh]
    · simp only [hk, if_false, lookupMap, ih]
      by_cases hh : k = h'
      · subst hh; simp [hk]
      · simp [hh]

/-- Replacing a map twice is replacing it by the later one. -/
@[simp] theorem setMap_setMap (maps : List (MapHandle × NameMap)) (h : MapHandle) (m m' : NameMap) :
    setMap (setMap maps h m) h m' = setMap maps h m' := by
  induction maps with
  | nil => simp [setMap]
  | cons p rest ih => by_cases hk : p.1 = h <;> simp [setMap, hk, ih]

/-- Putting a map back that is not empty changes nothing. -/
theorem setMap_lookupMap {maps : List (MapHandle × NameMap)} {h : MapHandle} (hm : lookupMap maps h ≠ []) :
    setMap maps h (lookupMap maps h) = maps := by
  induction maps with
  | nil => exact absurd rfl hm
  | cons p rest ih =>
    obtain ⟨k, x⟩ := p
    by_cases hk : k = h
    · simp [setMap, lookupMap, hk]
    · simp only [lookupMap, hk, if_false] at hm
      simp [setMap, lookupMap, hk, ih hm]

/-- Every listed map is the one put in or was listed before, and so is every handle. -/
theorem mem_setMap {maps : List (MapHandle × NameMap)} {h : MapHandle} {m : NameMap} {p : MapHandle × NameMap}
    (hp : p ∈ setMap maps h m) : p = (h, m) ∨ p ∈ maps := by
  induction maps with
  | nil => exact .inl (by simpa [setMap] using hp)
  | cons q rest ih =>
    obtain ⟨k, x⟩ := q
    unfold setMap at hp
    split at hp
    · subst_vars
      rcases List.mem_cons.1 hp with rfl | hp
      · exact .inl rfl
      · exact .inr (List.mem_cons_of_mem _ hp)
    · rcases List.mem_cons.1 hp with rfl | hp
      · exact .inr List.mem_cons_self
      · exact (ih hp).imp_right (List.mem_cons_of_mem _)

/-- Each handle goes on to stand for one map (R235). -/
theorem setMap_nodup {maps : List (MapHandle × NameMap)} (hn : (maps.map (·.1)).Nodup) (h : MapHandle) (m : NameMap) :
    ((setMap maps h m).map (·.1)).Nodup := by
  induction maps with
  | nil => simp [setMap]
  | cons p rest ih =>
    obtain ⟨k, x⟩ := p
    simp only [List.map_cons, List.nodup_cons] at hn
    unfold setMap
    split
    · simpa using hn
    · rename_i hk
      simp only [List.map_cons, List.nodup_cons]
      refine ⟨fun hmem => ?_, ih hn.2⟩
      obtain ⟨q, hq, hqk⟩ := List.mem_map.1 hmem
      rcases mem_setMap hq with rfl | hq
      · exact hk hqk.symm
      · exact hn.1 (List.mem_map.2 ⟨q, hq, hqk⟩)

/-- A looked-up map is one that is listed, or empty. -/
theorem lookupMap_mem (maps : List (MapHandle × NameMap)) (h : MapHandle) :
    lookupMap maps h = [] ∨ (h, lookupMap maps h) ∈ maps := by
  induction maps with
  | nil => exact .inl rfl
  | cons p rest ih =>
    obtain ⟨k, x⟩ := p
    unfold lookupMap
    split
    · subst_vars; exact .inr List.mem_cons_self
    · exact ih.imp_right (List.mem_cons_of_mem _)

/-- An INSERT step that answers a next state changes its own map, the host's list and its reports only (R231, R235). -/
theorem hostInsert_next {map : MapHandle} {name : Key} {w z : List Nat} {stage : InsertStage} {s t : State}
    (h : hostInsert map name w z stage s = .next t) :
    s.busy = false ∧ t = { s with maps := t.maps, prog := t.prog, reports := t.reports } ∧
      ∃ entries, t.maps = setMap s.maps map (insertAll (lookupMap s.maps map) entries).1 := by
  unfold hostInsert at h
  split at h
  · cases h
  · rename_i hb
    refine ⟨by simpa using hb, ?_⟩
    split at h
    · cases h
    · rename_i base _
      simp only [insertEntries, Config.atomicInsert] at h
      generalize hr : insertAll (lookupMap s.maps map) ((stageBatch false stage).map (s.entryOf name base w z)) = r at h
      obtain ⟨m, k⟩ := r
      cases k with
      | some key => simp at h; subst h; exact ⟨rfl, _, by rw [hr]⟩
      | none =>
        simp only at h
        split at h <;> (cases h; exact ⟨rfl, _, by rw [hr]⟩)

/-- A host turn does nothing, or runs the first action with the others left. -/
theorem hostTurn_cases (s : State) :
    (hostTurn s = .next s ∧ (s.prog = [] ∨ ∃ op rest, s.prog = op :: rest ∧ op.polls = true ∧ s.busy = true)) ∨
    ∃ op rest, s.prog = op :: rest ∧ (op.polls = false ∨ s.busy = false) ∧
      hostTurn s = runHostOp op { s with prog := rest } := by
  unfold hostTurn
  cases hp : s.prog with
  | nil => simp
  | cons op rest => cases h1 : op.polls <;> cases h2 : s.busy <;> simp [h1]

end Sys2Proof.Machine
end

