-- ==== Sys2Proof/Laws/PerInstr.lean ====
section
/-! SUPPORT. Statements made per instruction: the encoder agrees with the match and mask of spec/opcode_table.json. -/

namespace Sys2Proof.Laws

/-- The `match` of an instruction's row. -/
def tableMatch : Instr → BitVec 64
  | .decQ40 _ _ _ _ => 0x0000000000000002
  | .decQ41 _ _ _ => 0x0000000000000003
  | .decQ41L _ _ _ => 0x0000000100000003
  | .decQ80 _ _ _ _ => 0x0000000000000008
  | .start _ _ => 0x00000001
  | .ack _ => 0x00000002

/-- The `mask` of an instruction's row. -/
def tableMask : Instr → BitVec 64
  | .decQ40 _ _ _ _ => 0x00000000FFFFFFFF
  | .decQ41 _ _ _ => 0x00000001FFFFFFFF
  | .decQ41L _ _ _ => 0x00000001FFFFFFFF
  | .decQ80 _ _ _ _ => 0x00000000FFFFFFFF
  | .start _ _ => 0x00000001
  | .ack _ => 0x00000002

/-- The first two words of an instruction as the table numbers them, word 0 in bits 31:0. -/
def tableBits (i : Instr) : BitVec 64 := (encode i).getD 1 0 ++ (encode i).getD 0 0

/-- The number of words of a format (R79, R84). -/
def formatWords : Format → Nat
  | .jd => 5
  | .cmd => 1

/-- What is said of each instruction: its words are those of its row. -/
def EncodeMatchesTable.Statement (i : Instr) : Prop :=
  tableBits i &&& tableMask i = tableMatch i ∧ (encode i).length = formatWords i.format

theorem EncodeMatchesTable.decQ40 (flags lastdim outer tag : Word) :
    EncodeMatchesTable.Statement (.decQ40 flags lastdim outer tag) := by
  refine ⟨?_, rfl⟩
  simp only [tableBits, tableMask, tableMatch, encode, Config.qtQ40, List.getD_cons_zero, List.getD_cons_succ]
  refine BitVec.eq_of_getLsbD_eq fun i hi => ?_
  simp only [BitVec.getLsbD_and, BitVec.getLsbD_append]
  interval_cases i <;> simp

theorem EncodeMatchesTable.decQ41 (lastdim outer tag : Word) :
    EncodeMatchesTable.Statement (.decQ41 lastdim outer tag) :=
  ⟨by simp [tableBits, encode, tableMask, tableMatch, Config.qtQ41], rfl⟩

theorem EncodeMatchesTable.decQ41L (lastdim outer tag : Word) :
    EncodeMatchesTable.Statement (.decQ41L lastdim outer tag) :=
  ⟨by simp [tableBits, encode, tableMask, tableMatch, Config.qtQ41], rfl⟩

theorem EncodeMatchesTable.decQ80 (flags lastdim outer tag : Word) :
    EncodeMatchesTable.Statement (.decQ80 flags lastdim outer tag) := by
  refine ⟨?_, rfl⟩
  simp only [tableBits, tableMask, tableMatch, encode, Config.qtQ80, List.getD_cons_zero, List.getD_cons_succ]
  refine BitVec.eq_of_getLsbD_eq fun i hi => ?_
  simp only [BitVec.getLsbD_and, BitVec.getLsbD_append]
  interval_cases i <;> simp

theorem EncodeMatchesTable.start (ackFirst : Bool) (reserved : BitVec 30) :
    EncodeMatchesTable.Statement (.start ackFirst reserved) := by
  refine ⟨?_, rfl⟩
  simp only [tableBits, tableMask, tableMatch, encode, List.getD_cons_zero, List.getD_cons_succ, List.getD_nil]
  refine BitVec.eq_of_getLsbD_eq fun i hi => ?_
  simp only [BitVec.getLsbD_and, BitVec.getLsbD_append]
  interval_cases i <;> simp

theorem EncodeMatchesTable.ack (reserved : BitVec 30) : EncodeMatchesTable.Statement (.ack reserved) := by
  refine ⟨?_, rfl⟩
  simp only [tableBits, tableMask, tableMatch, encode, List.getD_cons_zero, List.getD_cons_succ, List.getD_nil]
  refine BitVec.eq_of_getLsbD_eq fun i hi => ?_
  simp only [BitVec.getLsbD_and, BitVec.getLsbD_append]
  interval_cases i <;> simp

end Sys2Proof.Laws
end

