-- ==== Sys2Proof/Tests/Slice0.lean ====
section
/-! SUPPORT. Tests of the model, with expected values from the spec's tables and worked examples, and for each statement
with hypotheses a state and operands that meet them. -/

namespace Sys2Proof.Tests

open Sys2Proof Sys2Proof.Machine

/-! ## Well-formedness, decoding, encoding -/

/-- R16: a FLAGS operand with a reserved bit is refused. -/
theorem test_wf_refuses_decQ40_flags : (Instr.decQ40 2 32 1 0).wf = false := by decide

theorem test_wf_refuses_decQ80_flags : (Instr.decQ80 0x80000001 32 1 0).wf = false := by decide

/-- Each word is written from the tables of R79 and R80: QTYPE all 32 bits, FLAGS with LIT in bit 0. -/
theorem test_decode_decQ40 :
    decode .jd [0b00000000000000000000000000000010#32, 0b00000000000000000000000000000001#32, 96, 12, 7]
      = .ok (.decQ40 1 96 12 7) := by decide

theorem test_decode_decQ41 :
    decode .jd [0b00000000000000000000000000000011#32, 0b00000000000000000000000000000000#32, 96, 12, 7]
      = .ok (.decQ41 96 12 7) := by decide

theorem test_decode_decQ41L :
    decode .jd [0b00000000000000000000000000000011#32, 0b00000000000000000000000000000001#32, 96, 12, 7]
      = .ok (.decQ41L 96 12 7) := by decide

theorem test_decode_decQ80 :
    decode .jd [0b00000000000000000000000000001000#32, 0b00000000000000000000000000000000#32, 96, 12, 7]
      = .ok (.decQ80 0 96 12 7) := by decide

/-- R12, R84: START is bit 0, ACK is bit 1, the rest is ignored. -/
theorem test_decode_start : decode .cmd [0b00000000000000000000000000000001#32] = .ok (.start false 0) := by decide

theorem test_decode_start_acknowledging :
    decode .cmd [0b11111111111111111111111111111111#32] = .ok (.start true 0x3FFFFFFF) := by decide

theorem test_decode_ack : decode .cmd [0b00000000000000000000000000000010#32] = .ok (.ack 0) := by decide

/-- R82: 0, the reset value, is unsupported; so is a QT that agrees with 2 in its low bits only. -/
theorem test_decode_rejects :
    decode .jd [0, 0, 0, 0, 0] = .error (.unsupportedType 0) ∧
    decode .jd [0x80000002, 0, 0, 0, 0] = .error (.unsupportedType 0x80000002) ∧
    decode .jd [7, 0, 64, 1, 0] = .error (.unsupportedType 7) ∧ decode .cmd [4] = .error (.noCommand 4) ∧
    decode .jd [2] = .error (.wrongLength .jd 1) := by decide

/-- The table's match values, numbered as opcode_table.json numbers them. -/
theorem test_decodeTableWord :
    decodeTableWord 64 0x0000000000000002 = some (.decQ40 0 0 0 0) ∧
    decodeTableWord 64 0x0000000000000003 = some (.decQ41 0 0 0) ∧
    decodeTableWord 64 0x0000000100000003 = some (.decQ41L 0 0 0) ∧
    decodeTableWord 64 0x0000000000000008 = some (.decQ80 0 0 0 0) ∧
    decodeTableWord 32 0x00000001 = some (.start false 0) ∧ decodeTableWord 32 0x00000002 = some (.ack 0) := by decide

/-- The next state of a result, if there is one. -/
def nextOf (r : StepResult) : Option State :=
  match r with
  | .next t => some t
  | .fault _ => none
  | .refused _ => none

/-- The next step after reset runs the placed instruction: a descriptor of zero dimensions is done in CHECK (R192), START
opens a job, ACK with no status does nothing (R258). -/
theorem test_withFetchWord :
    nextOf (step (State.reset.withFetchWord 64 0x0000000000000002)) =
      nextOf (exec (.decQ40 0 0 0 0) (State.reset.withFetchWord 64 0x0000000000000002)) ∧
    nextOf (step (State.reset.withFetchWord 64 0x0000000000000003)) =
      nextOf (exec (.decQ41 0 0 0) (State.reset.withFetchWord 64 0x0000000000000003)) ∧
    nextOf (step (State.reset.withFetchWord 64 0x0000000100000003)) =
      nextOf (exec (.decQ41L 0 0 0) (State.reset.withFetchWord 64 0x0000000100000003)) ∧
    nextOf (step (State.reset.withFetchWord 64 0x0000000000000008)) =
      nextOf (exec (.decQ80 0 0 0 0) (State.reset.withFetchWord 64 0x0000000000000008)) ∧
    (nextOf (step (State.reset.withFetchWord 64 0x0000000000000008))).map (·.statusWord) = some 2 ∧
    nextOf (step (State.reset.withFetchWord 32 1)) = some { State.reset with fsm := .check } ∧
    nextOf (step (State.reset.withFetchWord 32 2)) = some State.reset := by decide

/-! ## The datapath (95_test_vectors.md sections 2 and 3) -/

/-- NU1. -/
theorem test_nunpack_NU1 :
    nunpack #v[0x10, 0x32, 0x54, 0x76, 0x98, 0xBA, 0xDC, 0xFE, 0x01, 0x23, 0x45, 0x67, 0x89, 0xAB, 0xCD, 0xEF] =
      #v[0x20, 0x64, 0xA8, 0xEC, 0x31, 0x75, 0xB9, 0xFD, 0x31, 0x75, 0xB9, 0xFD, 0x20, 0x64, 0xA8, 0xEC] := by decide

/-- NU9. -/
theorem test_nunpack_NU9 :
    nunpack #v[0x12, 0x34, 0x56, 0x78, 0x9A, 0xBC, 0xDE, 0xF0, 0x0F, 0x1E, 0x2D, 0x3C, 0x4B, 0x5A, 0x69, 0xAB] =
      #v[0x42, 0x86, 0xCA, 0x0E, 0xEF, 0xCD, 0xAB, 0xB9, 0x31, 0x75, 0xB9, 0xFD, 0x10, 0x32, 0x54, 0xA6] := by decide

/-- NP2. -/
theorem test_npack_NP2 :
    npack #v[0x00, 0x01, 0x02, 0x03, 0x04, 0x05, 0x06, 0x07, 0x08, 0x09, 0x0A, 0x0B, 0x0C, 0x0D, 0x0E, 0x0F] =
      #v[0x80, 0x00, 0x91, 0x00, 0xA2, 0x00, 0xB3, 0x00, 0xC4, 0x00, 0xD5, 0x00, 0xE6, 0x00, 0xF7, 0x00] := by decide

/-- BG1, BG3, BG7, BG8, BG9, BG10, BG13, BG21, BG22, BG24, BG25, BG29: both columns. -/
theorem test_biasgen_vectors :
    [0x3C00, 0x0000, 0x0007, 0x0008, 0x007F, 0x0080, 0x03FF, 0x5FFF, 0x6000, 0x6FFF, 0x7000, 0xFC00].map
        (fun h : Half => (biasgen h 3, biasgen h 7)) =
      [(0xC800, 0xD800), (0x8000, 0x8000), (0x8038, 0x8380), (0x8040, 0x8400), (0x83F8, 0x93F0), (0x8400, 0x9400),
        (0x8FFE, 0x9FFE), (0xEBFF, 0xFBFF), (0xEC00, 0xFC00), (0xFBFF, 0xFC00), (0xFC00, 0xFC00), (0x7C00, 0x7C00)] := by
  decide

/-- FL1. -/
theorem test_flip8_FL1 :
    [0x00, 0x01, 0x7F, 0x80, 0x81, 0xFE, 0xFF, 0x40, 0xC0].map flip8 =
      [0x80, 0x81, 0xFF, 0x00, 0x01, 0x7E, 0x7F, 0xC0, 0x40] := by decide

/-- RP1 and RP3 on one staging buffer. -/
theorem test_repack32_RP1_RP3 :
    let out : Vector Byte 32 := (Vector.replicate 32 0).set 0 0x20 |>.set 1 0x64 |>.set 2 0xA8 |>.set 3 0xEC
      |>.set 4 0x01 |>.set 5 0x02 |>.set 6 0x03 |>.set 7 0x04
    repack32 out 0 = 0xECA86420 ∧ repack32 out 1 = 0x04030201 := by decide

/-! ## Small states -/

/-- A job's descriptor, its FLAGS write and its spaces: `n` blocks of the operation with QTYPE `q`, FLAGS.LIT `lit` and
latch row `l`, SRC bound to `src` and the three outputs bound exactly as far as the job needs. -/
def jobState (q : Word) (lit : Bool) (l : Latch) (n : Nat) (src : List Byte) : State :=
  { State.reset with
    qtype := q, lit := lit, flagsChosen := true, lastdim := 32, outer := BitVec.ofNat 32 n, fsm := .check
    srcSpace := Space.ofBytes src, wSpace := Space.fresh (4 * (n * l.wpbk.toNat))
    sSpace := Space.fresh (2 * n), bSpace := Space.fresh (2 * n) }

/-- The same job past CHECK, at block `b`, in the given state of the sequencer. -/
def blockState (q : Word) (lit : Bool) (l : Latch) (n : Nat) (src : List Byte) (f : Fsm) (b : Nat) : State :=
  { (jobState q lit l n src).setLatch l with nblk := BitVec.ofNat 64 n, bidx := BitVec.ofNat 64 b, fsm := f }

/-- The sixteen code bytes of NU1. -/
def codesNU1 : List Byte :=
  [0x10, 0x32, 0x54, 0x76, 0x98, 0xBA, 0xDC, 0xFE, 0x01, 0x23, 0x45, 0x67, 0x89, 0xAB, 0xCD, 0xEF]

/-- A one-block Q4_0 job: the block of EX1. -/
def blkQ40 : List Byte := [0x00, 0x3C] ++ codesNU1

/-- A one-block Q4_1 job: the block of EX9 and EX10. -/
def blkQ41 : List Byte := [0x00, 0x34, 0x00, 0xC0] ++ codesNU1

/-- A one-block Q8_0 job: scale 0x0001, the eight codes of EX15, then zeros. -/
def blkQ80 : List Byte := [0x01, 0x00, 0x80, 0x7F, 0xFF, 0x00, 0x01, 0xFE, 0x81, 0x7E] ++ List.replicate 24 0

def fetchQ40 : State := blockState 2 false latchQ40 1 blkQ40 .fetch 0
def fetchQ41 : State := blockState 3 false latchQ41 1 blkQ41 .fetch 0
def fetchQ41L : State := blockState 3 true latchQ41L 1 blkQ41 .fetch 0
def fetchQ80 : State := blockState 8 false latchQ80 1 blkQ80 .fetch 0

/-- A job whose last dimension is one more than a multiple of 32. -/
def badShape : State := { jobState 2 false latchQ40 1 blkQ40 with lastdim := 33 }

/-- A job whose type is none of the three. -/
def badType : State := { jobState 2 false latchQ40 1 blkQ40 with qtype := 9 }

/-- S[0], B[0] and the first words of W after a result. -/
def outputs (r : StepResult) (words : Nat) : Option (Half × Half × List Word) :=
  (nextOf r).map fun t => (t.sSpace.halfAt 0, t.bSpace.halfAt 0, (List.range words).map t.wSpace.wordAt)

/-! ## The instructions (95_test_vectors.md section 4) -/

/-- EX1, FETCH to STORE. -/
theorem test_decQ40_block :
    outputs (execRun (.decQ40 0 32 1 0) 4 fetchQ40) 4 =
      some (0x3C00, 0xC800, [0xECA86420, 0xFDB97531, 0xFDB97531, 0xECA86420]) := by decide

/-- R183's worked example: LASTDIM = 33 gives ERRCODE = 1 and STATUS = 0x4. -/
theorem test_decQ40_shape :
    (nextOf (exec (.decQ40 0 33 1 0) { State.reset with fsm := .check })).map (fun t => (t.errcodeWord, t.statusWord)) =
      some (1, 4) := by decide

/-- EX9. -/
theorem test_decQ41_block :
    outputs (execRun (.decQ41 32 1 0) 4 fetchQ41) 4 =
      some (0x3400, 0xC000, [0xECA86420, 0xFDB97531, 0xFDB97531, 0xECA86420]) := by decide

/-- EX10: the same block through the literal window. -/
theorem test_decQ41L_block :
    outputs (execRun (.decQ41L 32 1 0) 4 fetchQ41L) 4 =
      some (0x3400, 0xC000, [0xA8642000, 0xB97531EC, 0xB97531C0, 0xA86420FD]) := by decide

/-- R165's worked example. -/
theorem test_decQ80_block :
    outputs (execRun (.decQ80 0 32 1 0) 4 fetchQ80) 2 = some (0x0001, 0x8080, [0x807FFF00, 0xFE017E81]) := by decide

/-- R181's worked example: STATUS = 2, `WR CTRL, 1` gives STATUS = 1. -/
theorem test_start :
    (nextOf (exec (.start false 0) { State.reset with done := true })).map (·.statusWord) = some 1 := by decide

/-- R258's worked example: STATUS = 4 and ERRCODE = 1, `WR CTRL, 2` gives 0 and 0. -/
theorem test_ack :
    (nextOf (ctrlWrite 2 { State.reset with err := true, errcode := 1 })).map (fun t => (t.statusWord, t.errcodeWord)) =
      some (0, 0) := by decide

/-- R183: LASTDIM = 64 and QTYPE = 7 gives ERRCODE = 2; LASTDIM = 33 and QTYPE = 7 gives ERRCODE = 1 (R255). -/
theorem test_check_errors :
    nextOf (engineTurn { State.reset with fsm := .check, lastdim := 64, qtype := 7 }) =
      some { State.reset with lastdim := 64, qtype := 7, err := true, errcode := 2 } ∧
    nextOf (engineTurn { State.reset with fsm := .check, lastdim := 33, qtype := 7 }) =
      some { State.reset with lastdim := 33, qtype := 7, err := true, errcode := 1 } := by decide

/-! ## Hypotheses are met -/

/-- One well-formed instruction of each kind, FLAGS with its one bit set, reserved CTRL bits all set. -/
theorem witness_DecodeEncodeRoundTrip :
    [Instr.decQ40 1 0 0 0, .decQ41 0 0 0, .decQ41L 0 0 0, .decQ80 1 0 0 0, .start true 0x3FFFFFFF, .ack 0x3FFFFFFF].all
      Instr.wf = true := by decide

theorem witness_EncodeDecodeRoundTrip :
    decode .cmd [3] = .ok (.start true 0) ∧ decode .jd [2, 0xFFFFFFFF, 0, 0, 0] = .ok (.decQ40 1 0 0 0) := by decide

theorem witness_DescriptorDecodesExactlyThreeTypes :
    ((1 : Word) ≠ 2 ∧ (1 : Word) ≠ 3 ∧ (1 : Word) ≠ 8) ∧ ((0xFFFFFFFF : Word) ≠ 2 ∧ (0xFFFFFFFF : Word) ≠ 3 ∧
      (0xFFFFFFFF : Word) ≠ 8) := by decide

/-- The first code of each parity, and the last. -/
theorem witness_NunpackPlacesEveryCode :
    (0 : Fin 32).val % 2 = 0 ∧ (1 : Fin 32).val % 2 = 1 ∧ (31 : Fin 32).val % 2 = 1 := by decide

/-- The greatest exponents that do not overflow, for both k, and a subnormal scale. -/
theorem witness_BiasgenIsExact :
    ((halfExp 0x6FFF).toNat ≠ 31 ∧ (halfExp 0x6FFF).toNat + 3 < 31) ∧
    ((halfExp 0x5FFF).toNat ≠ 31 ∧ (halfExp 0x5FFF).toNat + 7 < 31) ∧
    ((halfExp 0x03FF).toNat ≠ 31 ∧ halfExp 0x03FF = 0) := by decide

/-- The least exponents that overflow, and the greatest finite scale. -/
theorem witness_BiasgenOverflowsExactly :
    (0 < (halfExp 0x7000).toNat ∧ (halfExp 0x7000).toNat < 31 ∧ 31 ≤ (halfExp 0x7000).toNat + 3) ∧
    (0 < (halfExp 0xE000).toNat ∧ (halfExp 0xE000).toNat < 31 ∧ 31 ≤ (halfExp 0xE000).toNat + 7) ∧
    (0 < (halfExp 0x7BFF).toNat ∧ (halfExp 0x7BFF).toNat < 31 ∧ 31 ≤ (halfExp 0x7BFF).toNat + 3) := by decide

/-- The first and the last NaN, and numbers that are none. -/
theorem witness_BiasgenOfSpecialScales :
    isNaN 0x7C01 = true ∧ isNaN 0xFFFF = true ∧ isNaN 0x7C00 = false ∧ isNaN 0x0001 = false := by decide

theorem witness_DerivedBiasRecentresCodes :
    ((halfExp 0x6FFF).toNat ≠ 31 ∧ (halfExp 0x6FFF).toNat + 3 < 31) ∧
    ((halfExp 0x5FFF).toNat ≠ 31 ∧ (halfExp 0x5FFF).toNat + 7 < 31) ∧ halfExp 0x0001 = 0 := by decide

/-- CHECK, the clauses of the four `Dec…Steps`: a bad shape on either side of a multiple of 32, no blocks, storage exactly
large enough, and one byte short. -/
theorem witness_CheckOutcomes_shape :
    (jobState 2 false latchQ40 1 blkQ40).fsm = .check ∧ (31 : Word).toNat % 32 ≠ 0 ∧ (33 : Word).toNat % 32 ≠ 0 := by decide

theorem witness_CheckOutcomes_zero :
    (0 : Word).toNat % 32 = 0 ∧ (1 : Word).toNat * ((0 : Word).toNat / 32) = 0 ∧
    (32 : Word).toNat % 32 = 0 ∧ (0 : Word).toNat * ((32 : Word).toNat / 32) = 0 := by decide

theorem witness_CheckOutcomes_launch :
    (1 : Word).toNat * ((32 : Word).toNat / 32) = 1 ∧
    missingSpace (jobState 2 false latchQ40 1 blkQ40) latchQ40 1 = none ∧
    missingSpace (jobState 3 false latchQ41 1 blkQ41) latchQ41 1 = none ∧
    missingSpace (jobState 3 true latchQ41L 1 blkQ41) latchQ41L 1 = none ∧
    missingSpace (jobState 8 false latchQ80 1 blkQ80) latchQ80 1 = none ∧
    (latchQ41.kind = .q4_1 ∧ (jobState 3 false latchQ41 1 blkQ41).flagsChosen = true) := by decide

/-- A Q4_1 job, in either window, for which nobody wrote FLAGS. -/
theorem witness_CheckOutcomes_flags :
    let s := { jobState 3 false latchQ41 1 blkQ41 with flagsChosen := false }
    let s' := { jobState 3 true latchQ41L 1 blkQ41 with flagsChosen := false }
    (s.fsm = .check ∧ missingSpace s latchQ41 1 = none ∧ latchQ41.kind = .q4_1 ∧ s.flagsChosen = false) ∧
    (s'.fsm = .check ∧ missingSpace s' latchQ41L 1 = none ∧ latchQ41L.kind = .q4_1 ∧ s'.flagsChosen = false) := by decide

theorem witness_CheckOutcomes_unbound :
    missingSpace (jobState 2 false latchQ40 1 blkQ40.tail) latchQ40 1 = some .src ∧
    missingSpace { jobState 3 false latchQ41 1 blkQ41 with wSpace := Space.fresh 15 } latchQ41 1 = some .w ∧
    missingSpace { jobState 3 true latchQ41L 1 blkQ41 with sSpace := Space.fresh 1 } latchQ41L 1 = some .s ∧
    missingSpace { jobState 8 false latchQ80 1 blkQ80 with bSpace := Space.fresh 1 } latchQ80 1 = some .b := by decide

/-- The block steps' clauses: FETCH with the greatest BS, STORE with the greatest WPBK, storage exactly large enough. -/
theorem witness_BlockOutcomes_fetch :
    let s := fetchQ80
    s.fsm = .fetch ∧ s.bs.toNat ≤ 34 ∧ s.srcSpace.holds 1 (s.bidx.toNat * s.bs.toNat + s.bs.toNat) = true := by decide

theorem witness_BlockOutcomes_store :
    let s := blockState 8 false latchQ80 1 blkQ80 .store 0
    s.fsm = .store ∧ s.wpbk.toNat ≤ 8 ∧ s.sSpace.holds 2 (s.bidx.toNat + 1) = true ∧
      s.bSpace.holds 2 (s.bidx.toNat + 1) = true ∧
      s.wSpace.holds 4 (s.bidx.toNat * s.wpbk.toNat + s.wpbk.toNat) = true := by decide

theorem witness_BlockOutcomes_other :
    (blockState 2 false latchQ40 1 blkQ40 .header 0).fsm = .header ∧
    (blockState 2 false latchQ40 1 blkQ40 .codes 0).fsm = .codes ∧ State.reset.fsm = .idle := by decide

/-- START: busy, idle with an error, idle without; a write of 1 and of 3. -/
theorem witness_StartOutcomes :
    (jobState 2 false latchQ40 1 blkQ40).fsm ≠ .idle ∧
    (State.reset.raise .unsupportedType).fsm = .idle ∧ (State.reset.raise .unsupportedType).err = true ∧
    State.reset.fsm = .idle ∧ State.reset.err = false ∧
    (1 : Word).getLsbD 0 = true ∧ (3 : Word).getLsbD 0 = true := by decide

/-- The last clause's premise: an accepted START. -/
theorem witness_StartOutcomes_accepted :
    exec (.start false 0) State.reset = .next { State.reset with fsm := .check } := rfl

/-- ACK: the same, and the state in which it does nothing. -/
theorem witness_AckOutcomes :
    (2 : Word).getLsbD 0 = false ∧ (2 : Word).getLsbD 1 = true ∧ (jobState 2 false latchQ40 1 blkQ40).fsm ≠ .idle ∧
    State.reset.fsm = .idle ∧ ErrcodeMatches State.reset ∧ State.reset.done = false ∧ State.reset.err = false := by decide

/-- The last block of a job, with storage exactly large enough. -/
theorem witness_DecQ40DecodesBlock :
    let s := blockState 2 false latchQ40 2 (blkQ40 ++ blkQ40) .fetch 1
    s.fsm = .fetch ∧ s.latch = latchQ40 ∧ SpacesCanonical s ∧ BlockBound s latchQ40 s.bidx.toNat := by
  unfold BlockBound; decide

theorem witness_DecQ41DecodesBlock :
    let s := fetchQ41
    (0xFFFFFFFE : Word).getLsbD 0 = false ∧
    s.fsm = .fetch ∧ s.latch = latchQ41 ∧ SpacesCanonical s ∧ BlockBound s latchQ41 s.bidx.toNat := by
  unfold BlockBound; decide

theorem witness_DecQ41LDecodesBlock :
    let s := fetchQ41L
    (1 : Word).getLsbD 0 = true ∧
    s.fsm = .fetch ∧ s.latch = latchQ41L ∧ SpacesCanonical s ∧ BlockBound s latchQ41L s.bidx.toNat := by
  unfold BlockBound; decide

theorem witness_DecQ80DecodesBlock :
    let s := fetchQ80
    s.fsm = .fetch ∧ s.latch = latchQ80 ∧ SpacesCanonical s ∧ BlockBound s latchQ80 s.bidx.toNat := by
  unfold BlockBound; decide

theorem witness_JobComputesEveryBlock_shape :
    let s := badShape
    StateInv s ∧ s.fsm = .check ∧ s.sched = [] ∧ s.prog = [] ∧ s.lastdim.toNat % 32 ≠ 0 := by decide

theorem witness_JobComputesEveryBlock_type :
    let s := badType
    StateInv s ∧ s.fsm = .check ∧ s.sched = [] ∧ s.prog = [] ∧ s.lastdim.toNat % 32 = 0 ∧
      s.qtype ≠ 2 ∧ s.qtype ≠ 3 ∧ s.qtype ≠ 8 := by decide

theorem witness_JobComputesEveryBlock :
    let s := jobState 8 false latchQ80 1 blkQ80
    StateInv s ∧ s.fsm = .check ∧ s.sched = [] ∧ s.prog = [] ∧ s.lastdim.toNat % 32 = 0 ∧
      latchOf s.qtype s.lit = some latchQ80 ∧ blockCount s.lastdim s.outer = 1 ∧
      launchProblem s latchQ80 (blockCount s.lastdim s.outer) = none := by decide

/-- The same with no block at all: the launch premises are not asked, not even the FLAGS write. -/
theorem witness_JobComputesEveryBlock_zero :
    let s := { jobState 3 true latchQ41L 0 [] with flagsChosen := false }
    StateInv s ∧ s.fsm = .check ∧ s.sched = [] ∧ s.prog = [] ∧ s.lastdim.toNat % 32 = 0 ∧
      latchOf s.qtype s.lit = some latchQ41L ∧ blockCount s.lastdim s.outer = 0 := by decide

theorem witness_RunningJobAlwaysCompletes :
    let s := blockState 2 false latchQ40 2 (blkQ40 ++ blkQ40) .fetch 1
    StateInv s ∧ s.fsm = .fetch ∧ s.sched = [] ∧ s.prog = [] ∧ 3 < 4 * (s.nblk.toNat - s.bidx.toNat) := by decide

/-- Two machines whose working registers differ, and the first one's run of a whole job of one block. -/
theorem witness_StaleWorkingRegistersNeverMatter :
    let s := jobState 8 false latchQ80 1 blkQ80
    s.fsm = .check ∧ s.sched = [] ∧ s.prog = [] ∧ blockCount s.lastdim s.outer = 1 ∧
      (nextOf (Sys2Proof.core.run (1 + 4 * blockCount s.lastdim s.outer) s)).isSome = true ∧
      SameButWorking s { s with bs := 34, bidx := 5, scale := 7, out := Vector.replicate 32 0xFF } :=
  ⟨rfl, rfl, rfl, by decide, by decide, _, _, _, _, _, _, _, _, _, _, _, _, rfl⟩

/-- The same for a job of no block. -/
theorem witness_StaleWorkingRegistersNeverMatter_zero :
    let s := jobState 2 false latchQ40 0 []
    s.fsm = .check ∧ s.sched = [] ∧ s.prog = [] ∧
      SameButWorking s { s with bs := 34, bidx := 5, scale := 7, out := Vector.replicate 32 0xFF } ∧
      ∃ t, Sys2Proof.core.run (1 + 4 * blockCount s.lastdim s.outer) s = .next t := by
  refine ⟨rfl, rfl, rfl, ⟨_, _, _, _, _, _, _, _, _, _, _, _, rfl⟩, ⟨_, rfl⟩⟩

theorem witness_BlockStepsIgnoreDescriptor :
    let s := blockState 2 false latchQ40 1 blkQ40 .header 0
    s.inBlock = true ∧ engineTurn s = .next (headerImplicit 3 s) := ⟨by decide, rfl⟩

/-- The frame's premise in each state of the sequencer. -/
theorem witness_EngineTurnFrame :
    ∀ f ∈ [Fsm.idle, .check, .fetch, .header, .codes, .store],
      let s := blockState 2 false latchQ40 1 blkQ40 f 0
      SpacesCanonical s ∧ (nextOf (engineTurn s)).isSome = true := by decide

/-- The invariant holds in a job's last STORE, whose step answers a next state. -/
theorem witness_StepKeepsInvariant :
    let s := blockState 8 false latchQ80 1 blkQ80 .store 0
    StateInv s ∧ (nextOf (step s)).map (·.done) = some true := by decide

/-- The two changes of DONE the frame speaks of: CHECK of a job of no block, and the last STORE. -/
theorem witness_EngineTurnFrame_done :
    let s := jobState 2 false latchQ40 0 []
    let s' := blockState 2 false latchQ40 1 blkQ40 .store 0
    (SpacesCanonical s ∧ s.fsm = .check ∧ s.done = false ∧ (nextOf (engineTurn s)).map (·.done) = some true) ∧
    (SpacesCanonical s' ∧ s'.fsm = .store ∧ s'.done = false ∧
      (nextOf (engineTurn s')).map (·.done) = some true) := by decide

theorem witness_ResetTurnKeepsMemory : ({ fetchQ40 with sched := [.reset] } : State).sched = .reset :: [] := rfl

theorem witness_OnlyCheckRaisesErrors :
    let s := badShape
    s.err = false ∧ step s = .next (s.rejectJob .incompatibleShape) ∧ (s.rejectJob .incompatibleShape).err = true :=
  ⟨rfl, rfl, rfl⟩

/-- CHECK, clause by clause: both wrong, the type only, no block, a launch, a launch without storage or FLAGS write. -/
theorem witness_CheckTestsShapeThenType :
    let s := jobState 8 false latchQ80 1 blkQ80
    s.fsm = .check ∧ ({ s with lastdim := 33, qtype := 7 } : State).lastdim.toNat % 32 ≠ 0 ∧
    ((64 : Word).toNat % 32 = 0 ∧ (7 : Word) ≠ 2 ∧ (7 : Word) ≠ 3 ∧ (7 : Word) ≠ 8) ∧
    latchOf s.qtype s.lit = some latchQ80 ∧ (0 : Word).toNat * (s.lastdim.toNat / 32) = 0 ∧
    s.outer.toNat * (s.lastdim.toNat / 32) ≠ 0 ∧
    launchProblem s latchQ80 (s.outer.toNat * (s.lastdim.toNat / 32)) = none ∧
    launchProblem { s with outer := 2 } latchQ80 2 = some (.unbound .src) ∧
    latchOf 3 false = some latchQ41 ∧
    launchProblem { jobState 3 false latchQ41 1 blkQ41 with flagsChosen := false } latchQ41 1 = some .flagsNotChosen := by
  decide

/-- Locked by BUSY and locked by ERR; a step that is not a reset. -/
theorem witness_DescriptorIsLocked :
    fetchQ40.locked = true ∧ (State.reset.raise .unsupportedType).locked = true ∧
    fetchQ40.sched.head? ≠ some .reset ∧ (∀ k, fetchQ40.sched.head? ≠ some (.resetInStore k)) ∧ (nextOf (step fetchQ40)).isSome = true ∧
    State.reset.busy = false ∧ State.reset.err = false := by
  refine ⟨by decide, by decide, by decide, fun k h => ?_, by decide, by decide, by decide⟩
  cases h

theorem witness_RegisterWritesWhileBusyAreIgnored :
    let s := { fetchQ40 with prog := [.regWrite 0x1C 5] }
    s.busy = true ∧ 0x1C % 4 = 0 ∧ 0x1C < 0x20 ∧ s.prog = .regWrite 0x1C 5 :: [] := by decide

theorem witness_CtrlWritesDecodeByBits :
    ((0xFFFFFFFC : Word).getLsbD 0 = false ∧ (0xFFFFFFFC : Word).getLsbD 1 = false) ∧
    ((2 : Word).getLsbD 0 = false ∧ (2 : Word).getLsbD 1 = true) ∧
    ((1 : Word).getLsbD 0 = true ∧ (1 : Word).getLsbD 1 = false) ∧
    ((3 : Word).getLsbD 0 = true ∧ (3 : Word).getLsbD 1 = true ∧ (State.reset.raise .unsupportedType).fsm = .idle) := by
  decide

/-- The lowest reserved bits of STATUS, ERRCODE and FLAGS. -/
theorem witness_StatusWordsReadTheFlags : 3 ≤ 3 ∧ 4 ≤ 4 ∧ 1 ≤ 1 := by decide

theorem witness_RegisterReadBack : State.reset.locked = false := by decide

/-- Offsets one past an aligned one, and the first one past the block. -/
theorem witness_OddRegisterAccessesAreRefused : 0x1D % 4 ≠ 0 ∧ (0x20 % 4 = 0 ∧ 0x20 ≤ 0x20) := by decide

/-- A busy machine, and one whose host has a turn that answers a next state. -/
theorem witness_SpacesAreUntouchableWhileBusy :
    fetchQ40.busy = true ∧ ({ fetchQ40 with prog := [.regRead 0x04] } : State).busy = true ∧
    (nextOf (hostTurn { fetchQ40 with prog := [.regRead 0x04] })).map (·.reads) = some [.reg 0x04 1] := by decide

theorem witness_BlockCountNeverWraps : (0xFFFFFFE0 : Word).toNat % 32 = 0 := by decide

/-- Each clause of the step's statement: CHECK by the fair policy and by a fixed turn, a block step both ways, the invariant
in a block step, and a CTRL write both ways. -/
theorem witness_StepRunsDecodedInstruction_engine :
    let s := jobState 2 false latchQ40 1 blkQ40
    let b := blockState 3 true latchQ41L 1 blkQ41 .codes 0
    (s.sched = [] ∧ s.hostReady = false ∧ s.fsm = .check ∧ decode .jd s.descriptor = .ok (.decQ40 0 32 1 0)) ∧
    (({ s with sched := [.engine] } : State).sched = .engine :: [] ∧
      decode .jd ({ s with sched := [.engine] } : State).descriptor = .ok (.decQ40 0 32 1 0)) ∧
    (b.sched = [] ∧ b.hostReady = false ∧ b.inBlock = true ∧ StateInv b) ∧
    (({ b with sched := [.engine] } : State).sched = .engine :: [] ∧ ({ b with sched := [.engine] } : State).inBlock = true) := by
  decide

theorem witness_StepRunsDecodedInstruction_host :
    let s := { State.reset with prog := [.regWrite 0x00 3] }
    let s' := { State.reset with prog := [.regWrite 0x00 2], sched := [.host] }
    (s.sched = [] ∧ s.prog = .regWrite 0x00 3 :: [] ∧ decode .cmd [3] = .ok (.start true 0)) ∧
    (s'.sched = .host :: [] ∧ s'.prog = .regWrite 0x00 2 :: [] ∧ decode .cmd [2] = .ok (.ack 0)) := by decide

theorem witness_CanonicalMemoriesAreEqualData :
    Memory.wf [(0, 1), (5, 0xFF)] = true ∧
    ∀ a, Memory.peek [(0, 1), (5, 0xFF)] a = Memory.peek (Memory.pokeList [] 0 [1, 0, 0, 0, 0, 0xFF]) a :=
  ⟨by decide, fun a => congrArg (Memory.peek · a) (by decide)⟩

/-- The bytes next to an element on both sides, and a neighbour element. -/
theorem witness_ElementWritesReadBack :
    (Space.fresh 12).wf = true ∧ 3 < 2 * 2 ∧ 2 * 2 + 2 ≤ 6 ∧ 7 < 4 * 2 ∧ 4 * 2 + 4 ≤ 12 ∧ (1 : Nat) ≠ 2 := by decide

theorem witness_TwoByteReadIsLittleEndian : 1 + 2 ≤ (Space.fresh 3).extent ∧ (Space.fresh 3).extent < 2 + 2 := by decide

theorem witness_OutputShapesDivideExactly : 32 % 32 = 0 ∧ 0 % 32 = 0 := by decide

/-- A tensor view of a name, type and shape. -/
def tensor (name : Key) (q : Word) (shape : List Nat) : TensorView :=
  { name := name, quantType := q, shape := shape, rawBytes := [], lit := false, tag := 0x11 }

/-- The name `a.weight`. -/
def nameA : Key := ['a', '.', 'w', 'e', 'i', 'g', 'h', 't']

theorem witness_BaseNameStripsOneSuffix :
    baseName nameA = some ['a'] ∧ ∀ base : Key, ['a'] ≠ base ++ ['.', 'w', 'e', 'i', 'g', 'h', 't'] := by
  refine ⟨by decide, fun base h => ?_⟩
  have := congrArg List.length h
  simp at this

/-- An empty entry. -/
def anyTensor : Tensor := { shape := [], elem := .u32, storage := Space.fresh 0 }

/-- Two maps: one in which both entries go in, and one that has the second key. -/
theorem witness_InsertionNeverOverwrites :
    insertEntries false [] [(['k'], anyTensor), (['m'], anyTensor)] = ([(['k'], anyTensor), (['m'], anyTensor)], none) ∧
    insertEntries false [(['m'], anyTensor)] [(['k'], anyTensor), (['m'], anyTensor)] =
      ([(['m'], anyTensor), (['k'], anyTensor)], some ['m']) ∧ [['m']].Nodup := by decide

theorem witness_AtomicInsertionIsAllOrNothing :
    (insertEntries true [(['m'], anyTensor)] [(['k'], anyTensor), (['m'], anyTensor)]).2 ≠ none ∧
    (insertEntries true [] [(['k'], anyTensor), (['m'], anyTensor)]).2 = none := by decide

/-- The source's shape [33], and a type that is none of the three with the least good last dimension. -/
theorem witness_ConvertRejectsBeforeAllocation :
    baseName nameA = some ['a'] ∧ [33].getLast? = some 33 ∧ 33 % 32 ≠ 0 ∧ [0].getLast? = some 0 ∧ 0 % 32 = 0 ∧
      (4 : Word) ≠ 2 ∧ (4 : Word) ≠ 3 ∧ (4 : Word) ≠ 8 := by decide

/-- The four states a `collect` can meet. -/
theorem witness_CollectFollowsStatus :
    let t := tensor nameA 2 [32]
    let s := { State.reset with prog := [.collect 0 t] }
    weightShape t.quantType t.shape = some [4] ∧ s.prog = .collect 0 t :: [] ∧
    ({ s with fsm := .check } : State).busy = true ∧
    ((s.raise .unsupportedType).busy = false ∧ (s.raise .unsupportedType).err = true) ∧
    ({ s with tag := 0x11, issued := [(0x11, nameA, [32]), (0x11, [], [])] } : State).issued =
      ((0x11 : Word), nameA, [32]) :: [(0x11, [], [])] ∧
    (({ s with done := true } : State).busy = false ∧ ({ s with done := true } : State).err = false) ∧
    (s.busy = false ∧ s.err = false ∧ s.done = false) := by decide

/-- The premises of the four rows of R231's table. -/
theorem witness_InsertStagesCommitInOrder :
    let s := { State.reset with prog := [.insert 7 nameA [4] [1] .weights] }
    let kS : Key := ['a', '.', 's', 'c', 'a', 'l', 'e', 's']
    let kB : Key := ['a', '.', 'b', 'i', 'a', 's', 'e', 's']
    baseName nameA = some ['a'] ∧ s.fsm = .idle ∧ s.sched = [] ∧
    s.prog = [.insert 7 nameA [4] [1] .weights] ∧
    (nameA ∉ (lookupMap s.maps 7).map (·.1) ∧ kS ∉ (lookupMap s.maps 7).map (·.1) ∧
      kB ∉ (lookupMap s.maps 7).map (·.1)) ∧
    nameA ∈ (lookupMap [(7, [(nameA, anyTensor)])] 7).map (·.1) ∧
    (nameA ∉ (lookupMap [(7, [(kS, anyTensor)])] 7).map (·.1) ∧ kS ∈ (lookupMap [(7, [(kS, anyTensor)])] 7).map (·.1)) ∧
    (nameA ∉ (lookupMap [(7, [(kB, anyTensor)])] 7).map (·.1) ∧
      kS ∉ (lookupMap [(7, [(kB, anyTensor)])] 7).map (·.1) ∧ kB ∈ (lookupMap [(7, [(kB, anyTensor)])] 7).map (·.1)) := by
  decide

/-- A line with and without its FLAGS write, with and without a recorded error. -/
theorem witness_DecLineLaunchesItsDescriptor :
    let s := { State.reset with prog := [.dec 3 (some true) 0x33 2 32] }
    let s' := { State.reset.raise .unsupportedType with prog := [.dec 2 none 0x11 1 64] }
    (s.fsm = .idle ∧ s.sched = [] ∧ s.prog = [.dec 3 (some true) 0x33 2 32] ∧ s.err = false) ∧
    (s'.fsm = .idle ∧ s'.sched = [] ∧ s'.prog = [.dec 2 none 0x11 1 64] ∧ s'.err = true) := by decide

/-- A reset turn inside the STORE of a one-block byte job (8 words: the greatest WPBK), after its first three writes. -/
def storeCut (k : Nat) : State :=
  { blockState 8 false latchQ80 1 blkQ80 .store 0 with scale := 0x3C00, bias := 0xD800, sched := [.resetInStore k] }

theorem witness_ResetInStoreLeavesAPrefix :
    let s := storeCut 10
    s.sched = .resetInStore 10 :: [] ∧ s.fsm = .store ∧ SpacesCanonical s ∧ s.wpbk.toNat = 8 ∧ 2 + s.wpbk.toNat ≤ 10 ∧
      s.sSpace.holds 2 (s.bidx.toNat + 1) = true ∧ s.bSpace.holds 2 (s.bidx.toNat + 1) = true ∧
      s.wSpace.holds 4 (s.bidx.toNat * s.wpbk.toNat + s.wpbk.toNat) = true ∧
      ({ fetchQ40 with sched := [.resetInStore 3] } : State).fsm ≠ .store := by decide

/-- R51, R189, R281: after one write the scale is stored and the bias is not. -/
theorem test_reset_in_store :
    outputs (step (storeCut 1)) 1 = some (0x3C00, 0x0000, [0]) ∧ outputs (step (storeCut 2)) 1 = some (0x3C00, 0xD800, [0]) :=
  by decide

/-- R283, P4: a Q4_1 job launched under an inherited FLAGS is refused; Q4_0 is not. -/
theorem test_flags_not_chosen :
    engineTurn { jobState 3 true latchQ41L 1 blkQ41 with flagsChosen := false } = .refused .flagsNotChosen ∧
    (nextOf (engineTurn { jobState 2 true latchQ40 1 blkQ40 with flagsChosen := false })).isSome = true :=
  ⟨rfl, by decide⟩

/-- Each type, no other dimension, a good and an empty shape, and the widths on both sides of their bounds. -/
theorem witness_ConvertQueuesItsLaunch :
    baseName (tensor nameA 3 [32]).name = some ['a'] ∧ (tensor nameA 2 []).shape = [] ∧
    (tensor nameA 3 [32]).shape = [] ++ [32] ∧ (tensor nameA 8 [12, 96]).shape = [12] ++ [96] ∧ 32 % 32 = 0 ∧
    (4294967264 % 32 = 0 ∧ 4294967264 < 2 ^ 32) ∧ (2 ^ 32 % 32 = 0 ∧ 2 ^ 32 ≤ 2 ^ 32) ∧
    [4294967295].prod < 2 ^ 32 ∧ 2 ^ 32 ≤ [65536, 65536].prod := by decide

/-- An INSERT into map 7, beside a map 3 that has an entry, changes what map 7 holds. -/
theorem witness_OnlyItsOwnInsertChangesAMap :
    let s := { State.reset with maps := [(3, [(nameA, anyTensor)])], prog := [.insert 7 nameA [4] [1] .weights] }
    lookupMap s.maps 7 = [] ∧ (nextOf (step s)).map (fun t => (lookupMap t.maps 7).map (·.1)) = some [nameA] := by decide

/-- R283, P4, and R291: a job that ends with ERR takes its FLAGS write; after the ACK a Q4_1 START that inherits LIT is
refused. -/
theorem test_flags_spent_by_error :
    let s := { jobState 3 true latchQ41L 1 blkQ41 with
      lastdim := 33, prog := [.regWrite 0x00 2, .regWrite 0x14 32, .regWrite 0x00 1], sched := [.engine, .host, .host] }
    (nextOf (Sys2Proof.core.run 4 s)).map (fun t => (t.fsm, t.qtype, t.lit, t.lastdim, t.flagsChosen)) =
      some (.check, 3, true, 32, false) ∧
    Sys2Proof.core.run 5 s = .refused .flagsNotChosen := ⟨by decide, rfl⟩

/-- CHECK in error, CHECK of a Q4_1 job that goes on, an ACK, and the FLAGS write that sets the mark. -/
theorem witness_FlagsWriteServesOneJob :
    let s := jobState 3 false latchQ41 1 blkQ41
    let w := { State.reset with prog := [.regWrite 0x10 1] }
    (s.fsm = .check ∧ s.flagsChosen = true ∧ s.qtype = 3 ∧ (nextOf (engineTurn s)).map (·.fsm) = some .fetch) ∧
    (badShape.fsm = .check ∧ (nextOf (engineTurn badShape)).isSome = true) ∧
    (nextOf (exec (.ack 0) s)).isSome = true ∧ (nextOf (exec (.start true 0) State.reset)).isSome = true ∧
    (w.flagsChosen = false ∧ w.locked = false ∧ (nextOf (step w)).map (·.flagsChosen) = some true) := by decide

end Sys2Proof.Tests
end

section
/-! PROOFS. Stale working registers (R9): a job reads a working register only after it has written it. The relation
`LiveAgree` names, for each state of the sequencer, which working registers a job may still read; two machines that agree
on those stay so through every engine step. -/

namespace Sys2Proof.Machine

/-! ## What each operation reads of the staging registers -/

/-- The bytes below `n` agree. -/
def AgreeBelow {m : Nat} (n : Nat) (v w : Vector Byte m) : Prop := ∀ (i : Nat) (h : i < m), i < n → v[i] = w[i]

/-- FETCH writes the bytes below BS from SRC alone (R186). -/
theorem fetchBlock_agreeBelow (src : Space) (base bs : Nat) (old old' : Vector Byte 34) :
    AgreeBelow bs (fetchBlock src base bs old) (fetchBlock src base bs old') := by
  intro i hi hlt
  simp [fetchBlock, hlt]

theorem fld16_congr {n : Nat} {v w : Vector Byte 34} (h : AgreeBelow n v w) (p : Fin 33) (hp : p.val + 1 < n) :
    fld16 v p = fld16 w p := by
  simp only [fld16, h p.val (by omega) (by omega), h (p.val + 1) (by omega) hp]

theorem codeWindow_congr {n : Nat} {v w : Vector Byte 34} (h : AgreeBelow n v w) (coff : BitVec 3)
    (hc : coff.toNat + 16 ≤ n) : codeWindow v coff = codeWindow w coff := by
  ext j hj
  have hcoff := coff.isLt
  simp [codeWindow, h (coff.toNat + j) (by omega) (by omega)]

theorem repack32_congr {n : Nat} {v w : Vector Byte 32} (h : AgreeBelow n v w) (k : Fin 8) (hk : 4 * k.val + 3 < n) :
    repack32 v k = repack32 w k := by
  have byte (j : Nat) (hj : j ≤ 3) : v[4 * k.val + j] = w[4 * k.val + j] := h _ (by omega) (by omega)
  simp only [repack32, byte 1 (by omega), byte 2 (by omega), byte 3 (by omega), h (4 * k.val) (by omega) (by omega)]

/-- The W writes of STORE read OUT below `4 * WPBK` only (R189). -/
theorem storeWords_congr {wpbk : Nat} {v w : Vector Byte 32} (h : AgreeBelow (4 * wpbk) v w) (sp : Space) (base : Nat) :
    storeWords sp base wpbk v = storeWords sp base wpbk w := by
  unfold storeWords
  congr 1
  funext sp k
  split
  next hk => rw [repack32_congr h k (by omega)]
  next => rfl

/-! ## The rows of the latch table -/

/-- R184: the latch is a row of the table. -/
def Latch.InTable (l : Latch) : Prop := ∃ q b, latchOf q b = some l

/-- In each row of R184 the fields HEADER reads and the code window lie inside the block that FETCH wrote. -/
theorem Latch.InTable.reads {l : Latch} (h : l.InTable) :
    4 ≤ l.bs.toNat ∧ (l.kind = .q8_0 → l.bs.toNat = 34) ∧
      (l.kind ≠ .q8_0 → l.coff.toNat + 16 ≤ l.bs.toNat ∧ l.wpbk.toNat = 4) := by
  obtain ⟨q, b, hl⟩ := h
  unfold latchOf at hl
  split_ifs at hl <;> cases hl <;> decide

/-! ## The engine's step in each state of the sequencer -/

/-- R187: the HEADER step of a kind. -/
def headerOf : Kind → State → State
  | .q4_0 => headerImplicit 3
  | .q4_1 => headerExplicit
  | .q8_0 => headerImplicit 7

/-- R188: the CODES step of a kind. -/
def codesOf : Kind → State → State
  | .q4_0 => codesLowBit
  | .q4_1 => codesLowBit
  | .q8_0 => codesByte

/-- Past CHECK the latched operation's step is its share of the sequencer (R180). -/
theorem exec_running (s : State) : ∃ l lastdim outer,
    exec s.running s = runJobStep l (headerOf s.kind) (codesOf s.kind) lastdim outer s := by
  unfold State.running
  cases s.kind
  case q4_1 => cases s.litl <;> exact ⟨_, _, _, rfl⟩
  all_goals exact ⟨_, _, _, rfl⟩

theorem engineTurn_of_idle {s : State} (hf : s.fsm = .idle) : engineTurn s = .next s := by
  simpa [hf] using engineTurn_cases s

theorem engineTurn_of_header {s : State} (hf : s.fsm = .header) : engineTurn s = .next (headerOf s.kind s) := by
  obtain ⟨l, lastdim, outer, h⟩ := exec_running s
  simp [engineTurn, hf, h, runJobStep]

theorem engineTurn_of_codes {s : State} (hf : s.fsm = .codes) : engineTurn s = .next (codesOf s.kind s) := by
  obtain ⟨l, lastdim, outer, h⟩ := exec_running s
  simp [engineTurn, hf, h, runJobStep]

theorem engineTurn_of_fetch {s : State} (hf : s.fsm = .fetch) : engineTurn s = stepFetch s := by
  simpa [hf] using engineTurn_cases s

theorem engineTurn_of_store {s : State} (hf : s.fsm = .store) : engineTurn s = stepStore s := by
  simpa [hf] using engineTurn_cases s

theorem engineTurn_of_check_some {s : State} {l : Latch} (hf : s.fsm = .check) (hl : latchOf s.qtype s.lit = some l) :
    engineTurn s = stepCheck l s.lastdim s.outer s := by
  simpa [hf, hl] using engineTurn_cases s

theorem engineTurn_of_check_none {s : State} (hf : s.fsm = .check) (hl : latchOf s.qtype s.lit = none) :
    engineTurn s = .next (rejectDescriptor s) := by
  simpa [hf, hl] using engineTurn_cases s

@[simp] theorem headerOf_fsm (k : Kind) (s : State) : (headerOf k s).fsm = .codes := by cases k <;> rfl
@[simp] theorem headerOf_latch (k : Kind) (s : State) : (headerOf k s).latch = s.latch := by cases k <;> rfl
@[simp] theorem headerOf_bs (k : Kind) (s : State) : (headerOf k s).bs = s.bs := by cases k <;> rfl
@[simp] theorem headerOf_blk (k : Kind) (s : State) : (headerOf k s).blk = s.blk := by cases k <;> rfl

@[simp] theorem codesOf_fsm (k : Kind) (s : State) : (codesOf k s).fsm = .store := by cases k <;> rfl
@[simp] theorem codesOf_latch (k : Kind) (s : State) : (codesOf k s).latch = s.latch := by cases k <;> rfl
@[simp] theorem codesOf_wpbk (k : Kind) (s : State) : (codesOf k s).wpbk = s.wpbk := by cases k <;> rfl

/-! ## The working registers a job may still read -/

/-- The state with other values in the registers that hold one block (R23 to R26). -/
def State.withBlockRegs (s : State) (blk : Vector Byte 34) (scale bias : Half) (out : Vector Byte 32) : State :=
  { s with blk := blk, scale := scale, bias := bias, out := out }

/-- The states agree but for the working registers that the job writes again before it reads them. -/
inductive LiveAgree : State → State → Prop
  | between {s s' : State} (hf : s.fsm = .idle ∨ s.fsm = .check) (h : SameButWorking s s') : LiveAgree s s'
  | fetch {s : State} (hf : s.fsm = .fetch) (hl : s.latch.InTable) {blk scale bias out} :
      LiveAgree s (s.withBlockRegs blk scale bias out)
  | header {s : State} (hf : s.fsm = .header) (hl : s.latch.InTable) {blk scale bias out}
      (hb : AgreeBelow s.bs.toNat blk s.blk) : LiveAgree s (s.withBlockRegs blk scale bias out)
  | codes {s : State} (hf : s.fsm = .codes) (hl : s.latch.InTable) {blk out} (hb : AgreeBelow s.bs.toNat blk s.blk) :
      LiveAgree s (s.withBlockRegs blk s.scale s.bias out)
  | store {s : State} (hf : s.fsm = .store) (hl : s.latch.InTable) {blk out}
      (ho : AgreeBelow (4 * s.wpbk.toNat) out s.out) : LiveAgree s (s.withBlockRegs blk s.scale s.bias out)

theorem sameButWorking_withBlockRegs (s : State) (blk scale bias out) :
    SameButWorking s (s.withBlockRegs blk scale bias out) := ⟨_, _, _, _, _, _, _, _, _, _, _, _, rfl⟩

theorem LiveAgree.sameButWorking {s s' : State} (h : LiveAgree s s') : SameButWorking s s' := by
  cases h with
  | between _ h => exact h
  | fetch | header | codes | store => exact sameButWorking_withBlockRegs ..

section SameButWorking
variable {s s' : State}

theorem SameButWorking.fsm_eq (h : SameButWorking s s') : s'.fsm = s.fsm := by
  obtain ⟨_, _, _, _, _, _, _, _, _, _, _, _, rfl⟩ := h; rfl

theorem SameButWorking.sameDescriptor (h : SameButWorking s s') : SameDescriptor s s' := by
  obtain ⟨_, _, _, _, _, _, _, _, _, _, _, _, rfl⟩ := h; exact ⟨rfl, rfl, rfl, rfl, rfl⟩

theorem SameButWorking.host_eq (h : SameButWorking s s') : s'.sched = s.sched ∧ s'.prog = s.prog := by
  obtain ⟨_, _, _, _, _, _, _, _, _, _, _, _, rfl⟩ := h; exact ⟨rfl, rfl⟩

theorem SameButWorking.launchProblem_eq (h : SameButWorking s s') (l : Latch) (n : Nat) :
    launchProblem s' l n = launchProblem s l n := by
  obtain ⟨_, _, _, _, _, _, _, _, _, _, _, _, rfl⟩ := h; rfl

theorem SameButWorking.rejectJob (h : SameButWorking s s') (e : EngineError) :
    SameButWorking (s.rejectJob e) (s'.rejectJob e) := by
  obtain ⟨_, _, _, _, _, _, _, _, _, _, _, _, rfl⟩ := h
  exact ⟨_, _, _, _, _, _, _, _, _, _, _, _, rfl⟩

/-- The set-up of CHECK leaves only the registers of one block to differ (R183). -/
theorem SameButWorking.setUpJob_eq (h : SameButWorking s s') (l : Latch) (n : Nat) :
    s'.setUpJob l n = (s.setUpJob l n).withBlockRegs s'.blk s'.scale s'.bias s'.out := by
  obtain ⟨_, _, _, _, _, _, _, _, _, _, _, _, rfl⟩ := h; rfl

end SameButWorking

/-! ## One engine step, for each state of the sequencer -/

/-- CHECK of a supported type reads no working register (R183). -/
theorem stepCheck_liveAgree {s s' t : State} {l : Latch} (hl : l.InTable) {lastdim outer : Word}
    (h : SameButWorking s s') (ht : stepCheck l lastdim outer s = .next t) :
    ∃ t', stepCheck l lastdim outer s' = .next t' ∧ LiveAgree t t' := by
  rcases stepCheck_cases l lastdim outer s with
    ⟨hs, e⟩ | ⟨hs, hn, e⟩ | ⟨hs, hn, hp, e⟩ | ⟨_, _, r, _, e⟩ <;> rw [e] at ht <;> cases ht
  · exact ⟨_, by simp [stepCheck, hs], .between (.inl rfl) (h.rejectJob _)⟩
  · refine ⟨State.withBlockRegs _ s'.blk s'.scale s'.bias s'.out, ?_,
      .between (.inl rfl) (sameButWorking_withBlockRegs ..)⟩
    simp [stepCheck, hs, hn, h.setUpJob_eq, State.withBlockRegs]
  · refine ⟨State.withBlockRegs _ s'.blk s'.scale s'.bias s'.out, ?_,
      .fetch (s := { s.setUpJob l _ with fsm := .fetch }) rfl hl⟩
    simp [stepCheck, hs, hn, h.launchProblem_eq, hp, h.setUpJob_eq, State.withBlockRegs]

theorem engineTurn_check_liveAgree {s s' t : State} (hf : s.fsm = .check) (h : SameButWorking s s')
    (ht : engineTurn s = .next t) : ∃ t', engineTurn s' = .next t' ∧ LiveAgree t t' := by
  have hf' : s'.fsm = .check := h.fsm_eq.trans hf
  obtain ⟨hq, hlit, hlast, houter, -⟩ := h.sameDescriptor
  cases hl : latchOf s.qtype s.lit with
  | none =>
    rw [engineTurn_of_check_none hf hl] at ht
    rw [engineTurn_of_check_none hf' (by rwa [hq, hlit])]
    cases ht
    refine ⟨_, rfl, ?_⟩
    unfold rejectDescriptor
    rw [hlast]
    split <;> exact .between (.inl rfl) (h.rejectJob _)
  | some l =>
    rw [engineTurn_of_check_some hf hl] at ht
    rw [engineTurn_of_check_some hf' (by rwa [hq, hlit]), hlast, houter]
    exact stepCheck_liveAgree ⟨_, _, hl⟩ h ht

/-- FETCH makes BLK agree below BS (R186). -/
theorem engineTurn_fetch_liveAgree {s t : State} (hf : s.fsm = .fetch) (hl : s.latch.InTable) (blk scale bias out)
    (ht : engineTurn s = .next t) :
    ∃ t', engineTurn (s.withBlockRegs blk scale bias out) = .next t' ∧ LiveAgree t t' := by
  have hf' : (s.withBlockRegs blk scale bias out).fsm = .fetch := hf
  rw [engineTurn_of_fetch hf] at ht
  rw [engineTurn_of_fetch hf']
  rcases stepFetch_cases s with ⟨hbs, hsrc, e⟩ | ⟨_, _, e⟩ | ⟨_, e⟩ <;> rw [e] at ht <;> cases ht
  refine ⟨State.withBlockRegs _ (fetchBlock s.srcSpace s.blockBase s.bs.toNat blk) scale bias out, ?_,
    .header (s := { s with blk := fetchBlock s.srcSpace s.blockBase s.bs.toNat s.blk, fsm := .header }) rfl hl
      (fetchBlock_agreeBelow _ _ _ _ _)⟩
  rw [State.blockBase] at hsrc
  simp [stepFetch, State.withBlockRegs, State.blockBase, Nat.not_lt.2 hbs, hsrc]

/-- HEADER makes SCALE and BIAS agree (R187). -/
theorem engineTurn_header_liveAgree {s t : State} (hf : s.fsm = .header) (hl : s.latch.InTable) {blk}
    (hb : AgreeBelow s.bs.toNat blk s.blk) (scale bias out) (ht : engineTurn s = .next t) :
    ∃ t', engineTurn (s.withBlockRegs blk scale bias out) = .next t' ∧ LiveAgree t t' := by
  have hf' : (s.withBlockRegs blk scale bias out).fsm = .header := hf
  rw [engineTurn_of_header hf] at ht
  cases ht
  have hbs : 4 ≤ s.bs.toNat := hl.reads.1
  have h0 : fld16 blk 0 = fld16 s.blk 0 := fld16_congr hb 0 (by simp; omega)
  have h2 : fld16 blk 2 = fld16 s.blk 2 := fld16_congr hb 2 (by simp; omega)
  have hstep (k : Kind) : headerOf k (s.withBlockRegs blk scale bias out) =
      (headerOf k s).withBlockRegs blk (headerOf k s).scale (headerOf k s).bias out := by
    cases k <;> simp [headerOf, headerImplicit, headerExplicit, State.withBlockRegs, h0, h2]
  refine ⟨_, (engineTurn_of_header hf').trans (congrArg _ (hstep s.kind)), ?_⟩
  exact .codes (by simp) (by simpa using hl) (by simpa using hb)

/-- CODES reads BLK below BS only, and writes as much of OUT as STORE reads (R188, R189). -/
theorem codesOf_agreeBelow {s : State} (hl : s.latch.InTable) {blk} (hb : AgreeBelow s.bs.toNat blk s.blk)
    (scale bias out) : AgreeBelow (4 * s.wpbk.toNat) (codesOf s.kind (s.withBlockRegs blk scale bias out)).out
      (codesOf s.kind s).out := by
  obtain ⟨-, hbyte, hlow⟩ := hl.reads
  have lowBit (hk : s.kind ≠ .q8_0) :
      AgreeBelow (4 * s.wpbk.toNat) (outLowBit (s.withBlockRegs blk scale bias out)) (outLowBit s) := by
    obtain ⟨hcoff, hwpbk⟩ : s.coff.toNat + 16 ≤ s.bs.toNat ∧ s.wpbk.toNat = 4 := hlow hk
    intro i hi hlt
    have hi16 : i < 16 := by omega
    simp [outLowBit, State.withBlockRegs, hi16, codeWindow_congr hb s.coff hcoff]
  cases hk : s.kind with
  | q4_0 | q4_1 => exact lowBit (by simp [hk])
  | q8_0 =>
    have hbs : s.bs.toNat = 34 := hbyte hk
    intro i hi _
    simp [codesOf, codesByte, outByte, State.withBlockRegs, hb (2 + i) (by omega) (by omega)]

/-- CODES makes OUT agree as far as STORE reads it (R188). -/
theorem engineTurn_codes_liveAgree {s t : State} (hf : s.fsm = .codes) (hl : s.latch.InTable) {blk}
    (hb : AgreeBelow s.bs.toNat blk s.blk) (out) (ht : engineTurn s = .next t) :
    ∃ t', engineTurn (s.withBlockRegs blk s.scale s.bias out) = .next t' ∧ LiveAgree t t' := by
  have hf' : (s.withBlockRegs blk s.scale s.bias out).fsm = .codes := hf
  rw [engineTurn_of_codes hf] at ht
  cases ht
  have hstep (k : Kind) : codesOf k (s.withBlockRegs blk s.scale s.bias out) =
      (codesOf k s).withBlockRegs blk (codesOf k s).scale (codesOf k s).bias
        (codesOf k (s.withBlockRegs blk s.scale s.bias out)).out := by cases k <;> rfl
  refine ⟨_, (engineTurn_of_codes hf').trans (congrArg _ (hstep s.kind)), ?_⟩
  exact .store (by simp) (by simpa using hl) (by simpa using codesOf_agreeBelow hl hb s.scale s.bias out)

/-- STORE writes the same memory for any BLK and any OUT that agrees where it reads (R189). -/
theorem State.storeBlock_withBlockRegs {s : State} (blk) {out} (ho : AgreeBelow (4 * s.wpbk.toNat) out s.out) :
    (s.withBlockRegs blk s.scale s.bias out).storeBlock = s.storeBlock.withBlockRegs blk s.scale s.bias out := by
  have hscale : 1 ≤ 2 + s.wpbk.toNat := by omega
  simp [State.storeBlock, State.storePrefix, State.wordBase, State.withBlockRegs, storeWords_congr ho, hscale]

theorem State.endBlock_withBlockRegs (s : State) (blk scale bias out) :
    (s.withBlockRegs blk scale bias out).endBlock = s.endBlock.withBlockRegs blk scale bias out := by
  unfold State.endBlock
  by_cases h : s.bidx = s.nblk <;> simp [h, State.withBlockRegs]

/-- After STORE the job has ended or goes to FETCH, where no register of the old block is read again (R189). -/
theorem engineTurn_store_liveAgree {s t : State} (hf : s.fsm = .store) (hl : s.latch.InTable) (blk) {out}
    (ho : AgreeBelow (4 * s.wpbk.toNat) out s.out) (ht : engineTurn s = .next t) :
    ∃ t', engineTurn (s.withBlockRegs blk s.scale s.bias out) = .next t' ∧ LiveAgree t t' := by
  have hf' : (s.withBlockRegs blk s.scale s.bias out).fsm = .store := hf
  rw [engineTurn_of_store hf] at ht
  obtain ⟨hw, hS, hB, hW, rfl⟩ := stepStore_next ht
  have hstep : stepStore (s.withBlockRegs blk s.scale s.bias out) =
      .next (s.withBlockRegs blk s.scale s.bias out).storeBlock.endBlock := stepStore_eq_next hw hS hB hW
  rw [engineTurn_of_store hf', hstep, State.storeBlock_withBlockRegs blk ho]
  refine ⟨_, rfl, ?_⟩
  rw [State.endBlock_withBlockRegs]
  rcases s.storeBlock.endBlock_cases with ⟨-, e⟩ | ⟨-, e⟩ <;> rw [e]
  · exact .between (.inl rfl) (sameButWorking_withBlockRegs ..)
  · exact .fetch (s := { s.storeBlock with fsm := .fetch }) rfl hl

/-! ## Steps and runs -/

/-- Every engine step keeps the agreement. -/
theorem engineTurn_liveAgree {s s' t : State} (h : LiveAgree s s') (ht : engineTurn s = .next t) :
    ∃ t', engineTurn s' = .next t' ∧ LiveAgree t t' := by
  cases h with
  | between hf h =>
    rcases hf with hf | hf
    · rw [engineTurn_of_idle hf] at ht
      cases ht
      exact ⟨s', engineTurn_of_idle (h.fsm_eq.trans hf), .between (.inl hf) h⟩
    · exact engineTurn_check_liveAgree hf h ht
  | fetch hf hl => exact engineTurn_fetch_liveAgree hf hl _ _ _ _ ht
  | header hf hl hb => exact engineTurn_header_liveAgree hf hl hb _ _ _ ht
  | codes hf hl hb => exact engineTurn_codes_liveAgree hf hl hb _ ht
  | store hf hl ho => exact engineTurn_store_liveAgree hf hl _ ho ht

theorem stepCheck_keeps_host {l : Latch} {lastdim outer : Word} {s t : State}
    (h : stepCheck l lastdim outer s = .next t) : t.sched = s.sched ∧ t.prog = s.prog := by
  rcases stepCheck_cases l lastdim outer s with ⟨_, e⟩ | ⟨_, _, e⟩ | ⟨_, _, _, e⟩ | ⟨_, _, _, _, e⟩ <;>
    rw [e] at h <;> cases h <;> exact ⟨rfl, rfl⟩

theorem State.endBlock_keeps_host (s : State) : s.endBlock.sched = s.sched ∧ s.endBlock.prog = s.prog := by
  rcases s.endBlock_cases with ⟨_, e⟩ | ⟨_, e⟩ <;> rw [e] <;> exact ⟨rfl, rfl⟩

/-- The engine leaves the host's actions and the turns alone (R33). -/
theorem engineTurn_keeps_host {s t : State} (h : engineTurn s = .next t) : t.sched = s.sched ∧ t.prog = s.prog := by
  cases hf : s.fsm with
  | idle => rw [engineTurn_of_idle hf] at h; cases h; exact ⟨rfl, rfl⟩
  | check =>
    cases hl : latchOf s.qtype s.lit with
    | none =>
      rw [engineTurn_of_check_none hf hl] at h
      cases h
      unfold rejectDescriptor
      split <;> exact ⟨rfl, rfl⟩
    | some l => exact stepCheck_keeps_host (engineTurn_of_check_some hf hl ▸ h)
  | fetch =>
    rw [engineTurn_of_fetch hf] at h
    rcases stepFetch_cases s with ⟨_, _, e⟩ | ⟨_, _, e⟩ | ⟨_, e⟩ <;> rw [e] at h <;> cases h
    exact ⟨rfl, rfl⟩
  | header => rw [engineTurn_of_header hf] at h; cases h; cases s.kind <;> exact ⟨rfl, rfl⟩
  | codes => rw [engineTurn_of_codes hf] at h; cases h; cases s.kind <;> exact ⟨rfl, rfl⟩
  | store =>
    rw [engineTurn_of_store hf] at h
    obtain ⟨-, -, -, -, rfl⟩ := stepStore_next h
    exact s.storeBlock.endBlock_keeps_host

/-- A run of one step more that answers is a step that answers and the run after it. -/
theorem run_succ_eq_next_iff (k : Nat) (s t : State) :
    Sys2Proof.core.run (k + 1) s = .next t ↔ ∃ u, step s = .next u ∧ Sys2Proof.core.run k u = .next t := by
  have hstep : Sys2Proof.core.step s = step s := rfl
  simp only [Host.Core.run, hstep]
  cases step s <;> simp

/-- Along a run of the engine alone the agreement lasts. -/
theorem run_liveAgree (k : Nat) {s s' t : State} (hsched : s.sched = []) (hprog : s.prog = []) (h : LiveAgree s s')
    (ht : Sys2Proof.core.run k s = .next t) : ∃ t', Sys2Proof.core.run k s' = .next t' ∧ LiveAgree t t' := by
  induction k generalizing s s' with
  | zero =>
    cases ht
    exact ⟨s', rfl, h⟩
  | succ k ih =>
    obtain ⟨hsched', hprog'⟩ := h.sameButWorking.host_eq
    obtain ⟨u, hu, hrun⟩ := (run_succ_eq_next_iff k s t).1 ht
    rw [step_eq_engineTurn hsched hprog] at hu
    obtain ⟨husched, huprog⟩ := engineTurn_keeps_host hu
    obtain ⟨u', hu', huu'⟩ := engineTurn_liveAgree h hu
    obtain ⟨t', hrun', htt'⟩ := ih (husched.trans hsched) (huprog.trans hprog) huu' hrun
    have hstep' : step s' = .next u' :=
      (step_eq_engineTurn (hsched'.trans hsched) (hprog'.trans hprog)).trans hu'
    exact ⟨t', (run_succ_eq_next_iff k s' t').2 ⟨u', hstep', hrun'⟩, htt'⟩

/-- Settles O27: in CHECK no working register is live, and a run keeps the agreement on the live ones. -/
theorem staleWorkingRegistersNeverMatter : Obligations.StaleWorkingRegistersNeverMatter := by
  intro s s' t hf hsched hprog h ht
  obtain ⟨t', hrun, hagree⟩ := run_liveAgree _ hsched hprog (.between (.inr hf) h) ht
  exact ⟨t', hrun, hagree.sameButWorking⟩

end Sys2Proof.Machine
end

section
/-! PROOFS. The register block (R11 to R19, R29, R30): what each register reads as, what a write to it stores, and which
accesses have a meaning. -/

namespace Sys2Proof.Machine

/-! ## Bits of the registers -/

/-- A flag stands in its own bit of a register and in no other. -/
theorem flagBit_getLsbD (b : Bool) (n i : Nat) : (flagBit b n).getLsbD i = (b && decide (i = n ∧ i < 32)) := by
  unfold flagBit
  cases b
  · simp
  · have hone : (1#32).getLsbD (i - n) = decide (i - n = 0) := by simp
    simp only [if_true, BitVec.getLsbD_shiftLeft, hone, Bool.true_and, ← decide_not, ← Bool.decide_and]
    exact decide_eq_decide.2 (by omega)

/-- Bit 0 of a word, as the word that FLAGS reads back as (R16). -/
theorem flagBit_getLsbD_zero (v : Word) : flagBit (v.getLsbD 0) 0 = v &&& 1 := by
  show _ = v &&& 1#32
  rw [BitVec.and_one_eq_setWidth_ofBool_getLsbD]
  cases v.getLsbD 0 <;> rfl

theorem State.flagsWord_eq (s : State) : s.flagsWord = if s.lit then 1 else 0 := by
  unfold State.flagsWord flagBit
  cases s.lit <;> rfl

/-! ## Reads -/

section Reads
variable (s : State)

@[simp] theorem State.regLoad_ctrl : s.regLoad 0x00 = 0 := rfl
@[simp] theorem State.regLoad_status : s.regLoad 0x04 = s.statusWord := rfl
@[simp] theorem State.regLoad_errcode : s.regLoad 0x08 = s.errcodeWord := rfl
@[simp] theorem State.regLoad_qtype : s.regLoad 0x0C = s.qtype := rfl
@[simp] theorem State.regLoad_flags : s.regLoad 0x10 = s.flagsWord := rfl
@[simp] theorem State.regLoad_lastdim : s.regLoad 0x14 = s.lastdim := rfl
@[simp] theorem State.regLoad_outer : s.regLoad 0x18 = s.outer := rfl
@[simp] theorem State.regLoad_tag : s.regLoad 0x1C = s.tag := rfl

end Reads

/-- From offset 0x0C on the block holds the descriptor, one word after the other (R11, R79). -/
theorem State.descriptor_getElem?_eq_regLoad (s : State) (j : Fin 5) :
    s.descriptor[j.val]? = some (s.regLoad (0x0C + 4 * j.val)) := by
  fin_cases j <;> rfl

/-! ## Writes -/

section Writes
variable {s : State} (h : s.locked = false) (v : Word)
include h

theorem State.regStore_qtype : s.regStore 0x0C v = { s with qtype := v } := by
  simp [State.regStore, h, qtypeOffset]

theorem State.regStore_flags : s.regStore 0x10 v = { s with lit := v.getLsbD 0, flagsChosen := true } := by
  simp [State.regStore, h, qtypeOffset, flagsOffset]

theorem State.regStore_lastdim : s.regStore 0x14 v = { s with lastdim := v } := by
  simp [State.regStore, h, qtypeOffset, flagsOffset, lastdimOffset]

theorem State.regStore_outer : s.regStore 0x18 v = { s with outer := v } := by
  simp [State.regStore, h, qtypeOffset, flagsOffset, lastdimOffset, outerOffset]

theorem State.regStore_tag : s.regStore 0x1C v = { s with tag := v } := by
  simp [State.regStore, h, qtypeOffset, flagsOffset, lastdimOffset, outerOffset, tagOffset]

/-- An unlocked write replaces one word of the descriptor, of FLAGS bit 0 only (R16, R29). -/
theorem State.regStore_descriptor (i : Fin 5) :
    (s.regStore (0x0C + 4 * i.val) v).descriptor = s.descriptor.set i.val (if i = 1 then v &&& 1 else v) := by
  match i with
  | 0 => exact congrArg State.descriptor (State.regStore_qtype h v)
  | 1 =>
    show (s.regStore 0x10 v).descriptor = s.descriptor.set 1 (v &&& 1)
    rw [State.regStore_flags h, ← flagBit_getLsbD_zero]
    rfl
  | 2 => exact congrArg State.descriptor (State.regStore_lastdim h v)
  | 3 => exact congrArg State.descriptor (State.regStore_outer h v)
  | 4 => exact congrArg State.descriptor (State.regStore_tag h v)

end Writes

/-! ## Accesses with and without a meaning -/

theorem registerProblem_misaligned {offset : Nat} (h : offset % 4 ≠ 0) :
    registerProblem offset = some (.misalignedRegister offset) := by
  simp [registerProblem, h]

theorem registerProblem_outside {offset : Nat} (h4 : offset % 4 = 0) (h : 0x20 ≤ offset) :
    registerProblem offset = some (.outsideBlock offset) := by
  simp [registerProblem, blockEnd, h4, h]

theorem registerProblem_aligned {offset : Nat} (h4 : offset % 4 = 0) (h : offset < 0x20) :
    registerProblem offset = none := by
  simp [registerProblem, blockEnd, h4, Nat.not_le.2 h]

/-- A register access at an offset without a meaning is refused for the offset's reason, read or write (R30). -/
theorem register_access_refused {offset : Nat} {r : Refusal} (h : registerProblem offset = some r) (v : Word) (s : State) :
    hostRegWrite offset v s = .refused r ∧ hostRegRead offset s = .refused r := by
  simp [hostRegWrite, hostRegRead, h]

theorem hostRegRead_eq {offset : Nat} (h4 : offset % 4 = 0) (h : offset < 0x20) (s : State) :
    hostRegRead offset s = .next { s with reads := s.reads ++ [.reg offset (s.regLoad offset)] } := by
  simp [hostRegRead, registerProblem_aligned h4 h]

theorem hostRegWrite_eq_regStore {offset : Nat} (h4 : offset % 4 = 0) (h : offset < 0x20) (h0 : offset ≠ 0x00)
    (v : Word) (s : State) : hostRegWrite offset v s = .next (s.regStore offset v) := by
  simp [hostRegWrite, registerProblem_aligned h4 h, ctrlOffset, h0]

/-- An offset of the descriptor is an aligned one inside the block, and not that of CTRL. -/
theorem descriptor_offset_range {offset : Nat} (h : offset ∈ [0x0C, 0x10, 0x14, 0x18, 0x1C]) :
    offset % 4 = 0 ∧ offset < 0x20 ∧ offset ≠ 0x00 := by
  simp only [List.mem_cons, List.not_mem_nil, or_false] at h
  omega

/-! ## The obligations -/

/-- Settles O32: the reset values of R31, as the host reads them. -/
theorem resetRegistersReadZero : Obligations.ResetRegistersReadZero :=
  ⟨rfl, rfl, rfl, rfl, rfl, rfl, rfl, rfl, rfl, rfl, by decide⟩

/-- Settles O38: the two low bits of a CTRL write choose the command, and no command reads the others. -/
theorem ctrlWritesDecodeByBits : Obligations.CtrlWritesDecodeByBits := by
  intro v s
  have hcases := ctrlWrite_cases v s
  refine ⟨fun h0 h1 => ?_, fun h0 h1 => ?_, fun h0 h1 => ?_, fun h0 h1 hf => ?_⟩ <;> simp only [h0, h1] at hcases
  · simpa using hcases
  · have hack : ctrlWrite v s = execAck (v.extractLsb' 2 30) s := by simpa using hcases
    exact hack
  · have hstart : ctrlWrite v s = execStart false (v.extractLsb' 2 30) s := by simpa using hcases
    exact hstart
  · have hstart : ctrlWrite v s = execStart true (v.extractLsb' 2 30) s := by simpa using hcases
    refine ⟨s.acknowledge, by simp [exec, execAck, State.busy, hf], ?_⟩
    simp [hstart, exec, execStart, State.busy, hf]

/-- Settles O39: each flag stands in its bit of the status words, and the reserved bits are 0. -/
theorem statusWordsReadTheFlags : Obligations.StatusWordsReadTheFlags := by
  intro s
  have status (n : Nat) : (s.regLoad 0x04).getLsbD n =
      ((s.busy && decide (n = 0 ∧ n < 32)) || (s.done && decide (n = 1 ∧ n < 32)) ||
        (s.err && decide (n = 2 ∧ n < 32))) := by
    simp [State.statusWord, flagBit_getLsbD]
  have flags (n : Nat) : (s.regLoad 0x10).getLsbD n = (s.lit && decide (n = 0 ∧ n < 32)) := by
    simp [State.flagsWord, flagBit_getLsbD]
  refine ⟨(status 0).trans (by simp), (status 1).trans (by simp), (status 2).trans (by simp), fun n hn => ?_, ?_,
    fun n hn => ?_, (flags 0).trans (by simp), fun n hn => ?_, rfl⟩
  · rw [status, decide_eq_false (by omega), decide_eq_false (by omega), decide_eq_false (by omega)]
    simp
  · ext i hi
    simp [State.errcodeWord, hi]
    omega
  · simp [State.errcodeWord, BitVec.getLsbD_of_ge s.errcode n hn]
  · rw [flags, decide_eq_false (by omega), Bool.and_false]

/-- Settles O40: a write is one word replaced in the descriptor, and the reads are its words. -/
theorem registerReadBack : Obligations.RegisterReadBack := by
  intro s v
  have ignored : s.regStore 0x04 v = s ∧ s.regStore 0x08 v = s := by constructor <;> (unfold State.regStore; split <;> rfl)
  refine ⟨?_, ?_, fun hl => ⟨?_, fun i j => Option.some.inj ?_⟩⟩
  · rw [hostRegWrite_eq_regStore (by decide) (by decide) (by decide), ignored.1]
  · rw [hostRegWrite_eq_regStore (by decide) (by decide) (by decide), ignored.2]
  · rw [State.regStore_flags hl]
    exact flagBit_getLsbD_zero v
  · have hlen : i.val < s.descriptor.length := i.isLt
    rw [← State.descriptor_getElem?_eq_regLoad, State.regStore_descriptor hl, List.getElem?_set,
      State.descriptor_getElem?_eq_regLoad]
    by_cases hij : i = j
    · subst hij
      simp [hlen]
    · simp [hij, Fin.val_inj]

/-- Settles O41: the offset alone decides the refusal, and a narrow access has no meaning at any offset. -/
theorem oddRegisterAccessesAreRefused : Obligations.OddRegisterAccessesAreRefused := by
  intro s offset bytes v
  exact ⟨fun h => register_access_refused (registerProblem_misaligned h) v s,
    fun h4 h => register_access_refused (registerProblem_outside h4 h) v s, rfl⟩

end Sys2Proof.Machine
end

section
/-! PROOFS. What a turn of the engine may write (R33), and that past CHECK it does not read the descriptor (R21, R58). The
relation `EngineMove` says once what an engine turn that answers does; frames and invariants go by its cases. -/

namespace Sys2Proof.Machine

/-! ## The moves of the engine -/

/-- R180 to R190: what an engine turn that answers does; what it computes for BLK, SCALE, BIAS and OUT is left open. -/
inductive EngineMove (s : State) : State → Prop
  /-- R180: in IDLE no step is enabled. -/
  | rest (hf : s.fsm = .idle) : EngineMove s s
  /-- R183, R256: CHECK finds an error. -/
  | reject (hf : s.fsm = .check) (e : EngineError) : EngineMove s (s.rejectJob e)
  /-- R192: CHECK of a job of no blocks. -/
  | finishEmpty (hf : s.fsm = .check) {l : Latch} (hl : latchOf s.qtype s.lit = some l)
      (hn : blockCount s.lastdim s.outer = 0) : EngineMove s { s.setUpJob l 0 with done := true, fsm := .idle }
  /-- R183: CHECK sets up a job with blocks. -/
  | launch (hf : s.fsm = .check) {l : Latch} (hl : latchOf s.qtype s.lit = some l) (hshape : shapeOk s.lastdim = true)
      (hn : blockCount s.lastdim s.outer ≠ 0) (hp : launchProblem s l (blockCount s.lastdim s.outer) = none) :
      EngineMove s { s.setUpJob l (blockCount s.lastdim s.outer) with fsm := .fetch }
  /-- R186: FETCH fills BLK. -/
  | fetch (hf : s.fsm = .fetch) (blk : Vector Byte 34) : EngineMove s { s with blk := blk, fsm := .header }
  /-- R187: HEADER sets SCALE and BIAS. -/
  | header (hf : s.fsm = .header) (scale bias : Half) : EngineMove s { s with scale := scale, bias := bias, fsm := .codes }
  /-- R188: CODES fills OUT. -/
  | codes (hf : s.fsm = .codes) (out : Vector Byte 32) : EngineMove s { s with out := out, fsm := .store }
  /-- R189: STORE writes the bound elements of its block. -/
  | store (hf : s.fsm = .store) (hS : s.sSpace.holds 2 (s.bidx.toNat + 1) = true)
      (hB : s.bSpace.holds 2 (s.bidx.toNat + 1) = true) (hW : s.wSpace.holds 4 (s.wordBase + s.wpbk.toNat) = true) :
      EngineMove s s.storeBlock.endBlock

theorem stepCheck_engineMove {s t : State} {l : Latch} (hf : s.fsm = .check) (hl : latchOf s.qtype s.lit = some l)
    (h : stepCheck l s.lastdim s.outer s = .next t) : EngineMove s t := by
  rcases stepCheck_cases l s.lastdim s.outer s with
    ⟨_, e⟩ | ⟨_, hn, e⟩ | ⟨hshape, hn, hp, e⟩ | ⟨_, _, _, _, e⟩ <;> rw [e] at h <;> cases h
  · exact .reject hf _
  · exact .finishEmpty hf hl hn
  · exact .launch hf hl hshape hn hp

/-- An engine turn that answers is one of the moves. -/
theorem engineTurn_next {s t : State} (h : engineTurn s = .next t) : EngineMove s t := by
  cases hf : s.fsm with
  | idle => rw [engineTurn_of_idle hf] at h; cases h; exact .rest hf
  | check =>
    cases hl : latchOf s.qtype s.lit with
    | none =>
      rw [engineTurn_of_check_none hf hl] at h
      cases h
      unfold rejectDescriptor
      split <;> exact .reject hf _
    | some l => exact stepCheck_engineMove hf hl (engineTurn_of_check_some hf hl ▸ h)
  | fetch =>
    rw [engineTurn_of_fetch hf] at h
    rcases stepFetch_cases s with ⟨_, _, e⟩ | ⟨_, _, e⟩ | ⟨_, e⟩ <;> rw [e] at h <;> cases h
    exact .fetch hf _
  | header => rw [engineTurn_of_header hf] at h; cases h; cases s.kind <;> exact .header hf _ _
  | codes => rw [engineTurn_of_codes hf] at h; cases h; cases s.kind <;> exact .codes hf _
  | store =>
    rw [engineTurn_of_store hf] at h
    obtain ⟨-, hS, hB, hW, rfl⟩ := stepStore_next h
    exact .store hf hS hB hW

/-! ## What a move writes -/

/-- R33: the engine writes its own registers, the status and the three output spaces, and nothing else. -/
theorem EngineMove.frame {s t : State} (h : EngineMove s t) :
    t = { s with
      done := t.done, err := t.err, errcode := t.errcode, fsm := t.fsm
      kind := t.kind, litl := t.litl, bs := t.bs, coff := t.coff, ob := t.ob, wpbk := t.wpbk
      nblk := t.nblk, bidx := t.bidx, blk := t.blk, scale := t.scale, bias := t.bias, out := t.out
      wSpace := t.wSpace, sSpace := t.sSpace, bSpace := t.bSpace, flagsChosen := t.flagsChosen } := by
  cases h with
  | store => rcases s.storeBlock.endBlock_cases with ⟨_, e⟩ | ⟨_, e⟩ <;> rw [e] <;> rfl
  | rest | reject | finishEmpty | launch | fetch | header | codes => rfl

theorem EngineMove.sameDescriptor {s t : State} (h : EngineMove s t) : SameDescriptor s t := by
  rw [h.frame]
  exact ⟨rfl, rfl, rfl, rfl, rfl⟩

/-- Outside STORE no move touches an output space. -/
theorem EngineMove.spaces_eq {s t : State} (h : EngineMove s t) (hf : s.fsm ≠ .store) :
    t.wSpace = s.wSpace ∧ t.sSpace = s.sSpace ∧ t.bSpace = s.bSpace := by
  cases h with
  | store hf' => exact absurd hf' hf
  | rest | reject | finishEmpty | launch | fetch | header | codes => exact ⟨rfl, rfl, rfl⟩

/-- R21, R22, R257: outside CHECK no move touches the latch, NBLK or the error. -/
theorem EngineMove.job_eq {s t : State} (h : EngineMove s t) (hf : s.fsm ≠ .check) :
    t.latch = s.latch ∧ t.nblk = s.nblk ∧ t.err = s.err ∧ t.errcode = s.errcode ∧ t.flagsChosen = s.flagsChosen := by
  cases h with
  | reject hf' | finishEmpty hf' | launch hf' => exact absurd hf' hf
  | store =>
    rcases s.storeBlock.endBlock_cases with ⟨_, e⟩ | ⟨_, e⟩ <;> rw [e] <;> exact ⟨rfl, rfl, rfl, rfl, rfl⟩
  | rest | fetch | header | codes => exact ⟨rfl, rfl, rfl, rfl, rfl⟩

/-- Outside CHECK and STORE no move touches BIDX or DONE. -/
theorem EngineMove.loop_eq {s t : State} (h : EngineMove s t) (hc : s.fsm ≠ .check) (hs : s.fsm ≠ .store) :
    t.bidx = s.bidx ∧ t.done = s.done := by
  cases h with
  | reject hf | finishEmpty hf | launch hf => exact absurd hf hc
  | store hf => exact absurd hf hs
  | rest | fetch | header | codes => exact ⟨rfl, rfl⟩

/-- R192: CHECK changes DONE for a job of no blocks only. -/
theorem EngineMove.done_of_check {s t : State} (h : EngineMove s t) (hf : s.fsm = .check) (hd : t.done ≠ s.done) :
    t.done = true ∧ t.nblk = 0 := by
  cases h with
  | finishEmpty => exact ⟨rfl, rfl⟩
  | rest | reject | launch => exact absurd rfl hd
  | fetch hf' | header hf' | codes hf' | store hf' => simp [hf] at hf'

/-- Each staging register is written in one state only: BLK in FETCH, SCALE and BIAS in HEADER, OUT in CODES. -/
theorem EngineMove.staging_eq {s t : State} (h : EngineMove s t) :
    (s.fsm ≠ .fetch → t.blk = s.blk) ∧ (s.fsm ≠ .codes → t.out = s.out) ∧
      (s.fsm ≠ .header → t.scale = s.scale ∧ t.bias = s.bias) := by
  cases h with
  | fetch hf => exact ⟨absurd hf, fun _ => rfl, fun _ => ⟨rfl, rfl⟩⟩
  | header hf => exact ⟨fun _ => rfl, fun _ => rfl, absurd hf⟩
  | codes hf => exact ⟨fun _ => rfl, absurd hf, fun _ => ⟨rfl, rfl⟩⟩
  | store =>
    rcases s.storeBlock.endBlock_cases with ⟨_, e⟩ | ⟨_, e⟩ <;> rw [e] <;>
      exact ⟨fun _ => rfl, fun _ => rfl, fun _ => ⟨rfl, rfl⟩⟩
  | rest | reject | finishEmpty | launch => exact ⟨fun _ => rfl, fun _ => rfl, fun _ => ⟨rfl, rfl⟩⟩

/-! ## What STORE writes -/

/-- A 16-bit element write leaves the bytes beside the element (R45). -/
theorem Space.peek_pokeHalf_of_outside {sp : Space} (h : sp.wf = true) {i a : Nat} (v : Half)
    (ha : a < 2 * i ∨ 2 * i + 2 ≤ a) : (sp.pokeHalf i v).peek a = sp.peek a := by
  have hlen : (halfBytes v).length = 2 := rfl
  rw [Space.pokeHalf, Space.peek_pokeBytes h, if_neg (by omega)]

/-- A 32-bit element write leaves the bytes beside the element (R45). -/
theorem Space.peek_pokeWord_of_outside {sp : Space} (h : sp.wf = true) {i a : Nat} (v : Word)
    (ha : a < 4 * i ∨ 4 * i + 4 ≤ a) : (sp.pokeWord i v).peek a = sp.peek a := by
  have hlen : (wordBytes v).length = 4 := rfl
  rw [Space.pokeWord, Space.peek_pokeBytes h, if_neg (by omega)]

/-- The W writes of STORE leave the bytes beside the block's words (R189). -/
theorem storeWords_peek_of_outside {sp : Space} (h : sp.wf = true) {base wpbk a : Nat} (out : Vector Byte 32)
    (hin : sp.holds 4 (base + wpbk) = true) (ha : a < 4 * base ∨ 4 * (base + wpbk) ≤ a) :
    (storeWords sp base wpbk out).peek a = sp.peek a := by
  unfold storeWords
  generalize List.finRange 8 = ks
  induction ks generalizing sp with
  | nil => rfl
  | cons k ks ih =>
    rw [List.foldl_cons]
    split
    next hk =>
      have hk' : sp.holds 4 (base + k.val + 1) = true := by
        simp only [Space.holds, decide_eq_true_eq] at hin ⊢
        omega
      rw [ih (Space.pokeWord_wf h _ hk') hin, Space.peek_pokeWord_of_outside h _ (by omega)]
    next => exact ih h hin

/-- STORE writes the elements of its own block and no other byte (R53, R189). -/
theorem State.storeBlock_onlyBlockWritten {s : State} (hc : SpacesCanonical s)
    (hW : s.wSpace.holds 4 (s.wordBase + s.wpbk.toNat) = true) : OnlyBlockWritten s s.storeBlock s.latch s.bidx.toNat := by
  obtain ⟨-, hw, hS, hB, -⟩ := hc
  refine ⟨rfl, by simp, by simp, by simp, fun a ha => ?_, fun a ha => ?_, fun a ha => ?_⟩
  · rw [State.storeBlock_sSpace, Space.peek_pokeHalf_of_outside hS _ ha]
  · rw [State.storeBlock_bSpace, Space.peek_pokeHalf_of_outside hB _ ha]
  · rw [State.storeBlock_wSpace, storeWords_peek_of_outside hw _ hW ha]

/-- R189: STORE writes one block, counts it, and sets DONE where it was the last one. -/
theorem EngineMove.store_writes {s t : State} (h : EngineMove s t) (hc : SpacesCanonical s) (hf : s.fsm = .store) :
    OnlyBlockWritten s t s.latch s.bidx.toNat ∧ t.bidx = s.bidx + 1 ∧
      (t.done ≠ s.done → t.done = true ∧ t.bidx = s.nblk) := by
  cases h with
  | store _ hS hB hW =>
    have hblock : OnlyBlockWritten s s.storeBlock s.latch s.bidx.toNat := State.storeBlock_onlyBlockWritten hc hW
    rcases s.storeBlock.endBlock_cases with ⟨hlast, e⟩ | ⟨_, e⟩ <;> rw [e]
    · exact ⟨hblock, rfl, fun _ => ⟨rfl, hlast⟩⟩
    · exact ⟨hblock, rfl, fun hd => absurd rfl hd⟩
  | rest hf' | reject hf' | finishEmpty hf' | launch hf' | fetch hf' | header hf' | codes hf' => simp [hf] at hf'

/-- Settles O29: every move writes within the frame of its state of the sequencer. -/
theorem engineTurnFrame : Obligations.EngineTurnFrame := by
  intro s t hc ht
  have h : EngineMove s t := engineTurn_next ht
  obtain ⟨hsrc, hmaps, hprog, hsched, hreads, hreports, hissued⟩ :
      t.srcSpace = s.srcSpace ∧ t.maps = s.maps ∧ t.prog = s.prog ∧ t.sched = s.sched ∧ t.reads = s.reads ∧
        t.reports = s.reports ∧ t.issued = s.issued := by
    rw [h.frame]
    exact ⟨rfl, rfl, rfl, rfl, rfl, rfl, rfl⟩
  exact ⟨h.sameDescriptor, hsrc, hmaps, hprog, hsched, hreads, hreports, hissued, h.spaces_eq, h.store_writes hc,
    h.done_of_check, h.job_eq, h.loop_eq, h.staging_eq⟩

/-! ## The descriptor past CHECK -/

/-- The state with other values in the five descriptor registers. -/
def State.withDescriptor (s : State) (q : Word) (lit : Bool) (l o g : Word) : State :=
  { s with qtype := q, lit := lit, lastdim := l, outer := o, tag := g }

section WithDescriptor
variable (s : State) (q : Word) (lit : Bool) (l o g : Word)

theorem headerOf_withDescriptor (k : Kind) :
    headerOf k (s.withDescriptor q lit l o g) = (headerOf k s).withDescriptor q lit l o g := by
  cases k <;> rfl

theorem codesOf_withDescriptor (k : Kind) :
    codesOf k (s.withDescriptor q lit l o g) = (codesOf k s).withDescriptor q lit l o g := by
  cases k <;> rfl

theorem State.endBlock_withDescriptor :
    (s.withDescriptor q lit l o g).endBlock = s.endBlock.withDescriptor q lit l o g := by
  unfold State.endBlock
  by_cases h : s.bidx = s.nblk <;> simp [h, State.withDescriptor]

variable {s} {t : State}

theorem stepFetch_withDescriptor (h : stepFetch s = .next t) :
    stepFetch (s.withDescriptor q lit l o g) = .next (t.withDescriptor q lit l o g) := by
  rcases stepFetch_cases s with ⟨hbs, hsrc, e⟩ | ⟨_, _, e⟩ | ⟨_, e⟩ <;> rw [e] at h <;> cases h
  rw [State.blockBase] at hsrc
  simp [stepFetch, State.withDescriptor, State.blockBase, Nat.not_lt.2 hbs, hsrc]

theorem stepStore_withDescriptor (h : stepStore s = .next t) :
    stepStore (s.withDescriptor q lit l o g) = .next (t.withDescriptor q lit l o g) := by
  obtain ⟨hw, hS, hB, hW, rfl⟩ := stepStore_next h
  have hstep : stepStore (s.withDescriptor q lit l o g) = .next (s.withDescriptor q lit l o g).storeBlock.endBlock :=
    stepStore_eq_next hw hS hB hW
  rw [hstep]
  exact congrArg _ (State.endBlock_withDescriptor s.storeBlock q lit l o g)

end WithDescriptor

/-- Settles O28: each of the four block steps commutes with a change of the descriptor. -/
theorem blockStepsIgnoreDescriptor : Obligations.BlockStepsIgnoreDescriptor := by
  intro s t q l o g lit hb ht
  show engineTurn (s.withDescriptor q lit l o g) = .next (t.withDescriptor q lit l o g)
  have hfsm : (s.withDescriptor q lit l o g).fsm = s.fsm := rfl
  rcases s.inBlock_iff.1 hb with hf | hf | hf | hf
  · rw [engineTurn_of_fetch hf] at ht
    rw [engineTurn_of_fetch (hfsm.trans hf), stepFetch_withDescriptor q lit l o g ht]
  · rw [engineTurn_of_header hf] at ht
    cases ht
    rw [engineTurn_of_header (hfsm.trans hf), headerOf_withDescriptor]
    rfl
  · rw [engineTurn_of_codes hf] at ht
    cases ht
    rw [engineTurn_of_codes (hfsm.trans hf), codesOf_withDescriptor]
    rfl
  · rw [engineTurn_of_store hf] at ht
    rw [engineTurn_of_store (hfsm.trans hf), stepStore_withDescriptor q lit l o g ht]

end Sys2Proof.Machine
end

section
/-! PROOFS. The moves of the host and the descriptor lock (R29). The relation `HostMove` says once what an action of the host
that answers does, as `EngineMove` does for the engine. -/

namespace Sys2Proof.Machine

/-! ## The moves of the host -/

/-- R11, R33, R220: what an action of the host that answers does. -/
inductive HostMove (s : State) : State → Prop
  /-- Reads, queued actions and reports: only the host's own lists change. -/
  | lists (prog : List HostOp) (reads : List HostRead) (reports : List Report) (issued : List (Word × Key × List Nat)) :
      HostMove s { s with prog := prog, reads := reads, reports := reports, issued := issued }
  /-- R29: a RegWrite to another register than CTRL. -/
  | regStore (offset : Nat) (v : Word) : HostMove s (s.regStore offset v)
  /-- R258: an ACK that is not ignored. -/
  | acknowledge (hb : s.busy = false) : HostMove s s.acknowledge
  /-- R181: a START that is accepted. -/
  | start (hb : s.busy = false) (he : s.err = false) : HostMove s { s with done := false, fsm := .check }
  /-- R12, R181: an ACK and a START in one write. -/
  | acknowledgeStart (hb : s.busy = false) : HostMove s { s.acknowledge with fsm := .check }
  /-- R43: a BIND. -/
  | bind (hb : s.busy = false) {id : SpaceId} {buffer : Buffer}
      (hsize : id = .src → buffer.size ≤ 2 ^ Config.addressBits) : HostMove s (s.setSpace id buffer.toSpace)
  /-- R33, R45: a write of an element. -/
  | writeElem (hb : s.busy = false) {id : SpaceId} {i : Nat} (hin : (s.space id).holds (elemBytes id) (i + 1) = true)
      (v : Word) : HostMove s (s.pokeElem id i v)
  /-- R231: insertions into one map. -/
  | insert (map : MapHandle) (entries : List (Key × Tensor)) (prog : List HostOp) (reports : List Report) :
      HostMove s { s with
        maps := setMap s.maps map (insertAll (lookupMap s.maps map) entries).1, prog := prog, reports := reports }

/-- A turn that changes nothing is a move. -/
theorem HostMove.refl (s : State) : HostMove s s := .lists s.prog s.reads s.reports s.issued

theorem ctrlWrite_hostMove {v : Word} {s t : State} (h : ctrlWrite v s = .next t) : HostMove s t := by
  rcases ctrlWrite_cases v s with ⟨_, e⟩ | ⟨_, _, e⟩ | ⟨_, _, e⟩ <;> rw [e] at h
  · rcases execStart_cases (v.getLsbD 1) (v.extractLsb' 2 30) s with
      ⟨_, e⟩ | ⟨hb, _, e⟩ | ⟨_, _, _, e⟩ | ⟨hb, _, he, e⟩ <;> rw [e] at h <;> cases h
    · exact .refl s
    · exact .acknowledgeStart hb
    · exact .refl s
    · exact .start hb he
  · unfold execAck at h
    split at h <;> cases h
    next => exact .refl s
    next hb => exact .acknowledge (by simpa using hb)
  · cases h
    exact .refl s

/-- A RegRead with a meaning appends what it read (R11). -/
theorem hostRegRead_next {offset : Nat} {s t : State} (h : hostRegRead offset s = .next t) :
    registerProblem offset = none ∧ t = { s with reads := s.reads ++ [.reg offset (s.regLoad offset)] } := by
  cases hp : registerProblem offset with
  | some r => rw [(register_access_refused hp 0 s).2] at h; cases h
  | none =>
    obtain ⟨h4, hlt⟩ := registerProblem_none hp
    rw [hostRegRead_eq h4 hlt] at h
    cases h
    exact ⟨rfl, rfl⟩

/-- An action of the host that answers is one of the moves. -/
theorem runHostOp_next {op : HostOp} {s t : State} (h : runHostOp op s = .next t) : HostMove s t := by
  cases op with
  | regWrite offset v =>
    obtain ⟨-, ⟨-, hctrl⟩ | ⟨-, rfl⟩⟩ := hostRegWrite_next h
    · exact ctrlWrite_hostMove hctrl
    · exact .regStore offset v
  | regRead offset =>
    obtain ⟨-, rfl⟩ := hostRegRead_next h
    exact .lists ..
  | narrowAccess offset bytes => cases h
  | bind id buffer =>
    obtain ⟨hb, hsize, rfl⟩ := hostBind_next h
    exact .bind hb hsize
  | readElem id i =>
    obtain ⟨-, -, rfl⟩ := hostReadElem_next h
    exact .lists ..
  | writeElem id i v =>
    obtain ⟨hb, hin, rfl⟩ := hostWriteElem_next h
    exact .writeElem hb hin v
  | dec quantType lit tag outer lastdim => cases h; exact .lists ..
  | wait => cases h; exact .refl s
  | convert map v => rw [(hostConvert_next h).1]; exact .lists ..
  | collect map v => rw [hostCollect_next h]; exact .lists ..
  | insert map name w z stage =>
    obtain ⟨-, e, entries, hmaps⟩ := hostInsert_next h
    rw [e, hmaps]
    exact .insert ..

/-- A host turn that answers is a move, once its action is off the list. -/
theorem hostTurn_next {s t : State} (h : hostTurn s = .next t) : ∃ rest, HostMove { s with prog := rest } t := by
  rcases hostTurn_cases s with ⟨e, -⟩ | ⟨op, rest, -, -, e⟩ <;> rw [e] at h
  · cases h
    exact ⟨s.prog, .refl s⟩
  · exact ⟨rest, runHostOp_next h⟩

/-- A step is the turn fixed for it, or one that the fair policy picks: never a reset (R193). -/
theorem step_eq_runTurn (s : State) : ∃ turn ts, step s = runTurn turn { s with sched := ts } ∧
    (s.sched.head? = some turn ∨ turn = .host ∨ turn = .engine) := by
  rcases step_cases s with ⟨turn, ts, hsched, e⟩ | ⟨hsched, e⟩
  · exact ⟨turn, ts, e, .inl (by rw [hsched]; rfl)⟩
  · refine ⟨s.fairTurn, [], by rw [e, ← hsched], .inr ?_⟩
    unfold State.fairTurn
    cases s.hostReady <;> simp

/-! ## The descriptor lock -/

theorem State.locked_eq_false_iff (s : State) : s.locked = false ↔ s.busy = false ∧ s.err = false := by
  simp [State.locked]

/-- R29: a move of the host keeps a locked descriptor. -/
theorem HostMove.sameDescriptor {s t : State} (h : HostMove s t) (hl : s.locked = true) : SameDescriptor s t := by
  cases h with
  | regStore offset v => rw [State.regStore_locked hl]; exact ⟨rfl, rfl, rfl, rfl, rfl⟩
  | bind => rw [State.setSpace_frame]; exact ⟨rfl, rfl, rfl, rfl, rfl⟩
  | writeElem => rw [State.pokeElem_frame]; exact ⟨rfl, rfl, rfl, rfl, rfl⟩
  | lists | acknowledge | start | acknowledgeStart | insert => exact ⟨rfl, rfl, rfl, rfl, rfl⟩

/-- R29: of all steps only a reset changes a locked descriptor. -/
theorem step_sameDescriptor {s t : State} (hl : s.locked = true) (hreset : s.sched.head? ≠ some .reset)
    (hcut : ∀ k, s.sched.head? ≠ some (.resetInStore k)) (h : step s = .next t) : SameDescriptor s t := by
  obtain ⟨turn, ts, e, hturn⟩ := step_eq_runTurn s
  rw [e] at h
  cases turn with
  | host =>
    obtain ⟨rest, hmove⟩ := hostTurn_next h
    exact hmove.sameDescriptor hl
  | engine => exact (engineTurn_next h).sameDescriptor
  | reset => exact absurd (by simpa using hturn) hreset
  | resetInStore k => exact absurd (by simpa using hturn) (hcut k)

/-- Settles O36: the lock from the register rules and the moves, the reads and the unlocked writes register by register. -/
theorem descriptorIsLocked : Obligations.DescriptorIsLocked := by
  refine ⟨fun s offset v hl hoff => ?_, fun s => ?_, fun s t hl hreset hcut h => step_sameDescriptor hl hreset hcut h,
    fun s v hb he => ?_⟩
  · obtain ⟨h4, hlt, h0⟩ := descriptor_offset_range hoff
    rw [hostRegWrite_eq_regStore h4 hlt h0, State.regStore_locked hl]
  · rw [← State.flagsWord_eq]
    exact ⟨rfl, rfl, rfl, rfl, rfl⟩
  · have hl : s.locked = false := s.locked_eq_false_iff.2 ⟨hb, he⟩
    rw [← State.regStore_qtype hl, ← State.regStore_flags hl, ← State.regStore_lastdim hl, ← State.regStore_outer hl,
      ← State.regStore_tag hl]
    exact ⟨rfl, rfl, rfl, rfl, rfl⟩

end Sys2Proof.Machine
end

section
/-! PROOFS. The invariant of the whole machine (R13, R14, R21, R22, R58, R60, R228): it holds after reset, and every move of
the host, move of the engine and reset keeps it. -/

namespace Sys2Proof.Machine

/-! ## The parts of the invariant -/

theorem StatusExclusive.of_not_busy {s : State} (hb : s.busy = false) (h : s.done = false ∨ s.err = false) :
    StatusExclusive s := by
  rcases h with h | h <;> simp [StatusExclusive, hb, h]

theorem StatusExclusive.of_clear {s : State} (hd : s.done = false) (he : s.err = false) : StatusExclusive s := by
  simp [StatusExclusive, hd, he]

/-- R13: while the engine runs, DONE and ERR are 0. -/
theorem StatusExclusive.clear_of_busy {s : State} (h : StatusExclusive s) (hb : s.busy = true) :
    s.done = false ∧ s.err = false := by
  obtain ⟨hdone, herr, -⟩ := h
  exact ⟨by simpa [hb] using hdone, by simpa [hb] using herr⟩

theorem ErrcodeMatches.of_clear {s : State} (he : s.err = false) (hcode : s.errcode = 0) : ErrcodeMatches s := by
  simp [ErrcodeMatches, he, hcode]

/-- R14: with no error recorded ERRCODE is 0. -/
theorem ErrcodeMatches.errcode_eq_zero {s : State} (h : ErrcodeMatches s) (he : s.err = false) : s.errcode = 0 := by
  obtain ⟨hiff, -⟩ := h
  by_contra hne
  simpa [he] using hiff.2 hne

theorem State.inBlock_eq_false_iff (s : State) : s.inBlock = false ↔ s.fsm = .idle ∨ s.fsm = .check := by
  unfold State.inBlock State.busy
  cases s.fsm <;> simp

theorem State.busy_eq_false_iff (s : State) : s.busy = false ↔ s.fsm = .idle := by simp [State.busy]

theorem State.busy_of_fsm_ne {s : State} (h : s.fsm ≠ .idle) : s.busy = true := s.busy_iff.2 h

/-- Outside the block states the invariant asks nothing of the working registers (R9). -/
theorem stateInv_of_not_inBlock {s : State} (hb : s.inBlock = false) (hstatus : StatusExclusive s)
    (herr : ErrcodeMatches s) (hspaces : SpacesCanonical s) (hmaps : MapKeysUnique s) : StateInv s := by
  have past {p : Prop} : s.inBlock = true → p := fun h => absurd h (by simp [hb])
  exact ⟨hstatus, herr, past, past, past, hspaces, hmaps⟩

theorem Space.holds_congr {sp sp' : Space} (h : sp'.extent = sp.extent) (width n : Nat) :
    sp'.holds width n = sp.holds width n := by
  unfold Space.holds
  rw [h]

/-- Only the extents of the spaces say what is missing (R60). -/
theorem missingSpace_congr {s t : State} (hsrc : t.srcSpace.extent = s.srcSpace.extent)
    (hw : t.wSpace.extent = s.wSpace.extent) (hS : t.sSpace.extent = s.sSpace.extent)
    (hB : t.bSpace.extent = s.bSpace.extent) (l : Latch) (n : Nat) : missingSpace t l n = missingSpace s l n := by
  simp only [missingSpace, Space.holds_congr hsrc, Space.holds_congr hw, Space.holds_congr hS, Space.holds_congr hB]

/-! ## The invariant through reset -/

/-- A reset leaves nothing to ask but of the memory and the maps, which it keeps (R280, R282). -/
theorem stateInv_resetEvent {s : State} (hspaces : SpacesCanonical s) (hmaps : MapKeysUnique s) : StateInv s.resetEvent :=
  stateInv_of_not_inBlock rfl (.of_clear rfl rfl) (.of_clear rfl rfl) hspaces hmaps

/-- Settles O31: the reset state is idle, without a status, and binds nothing. -/
theorem resetMeetsInvariant : Obligations.ResetMeetsInvariant :=
  stateInv_resetEvent (s := State.reset) (by decide) (by decide)

/-- Part of STORE keeps the spaces canonical where the whole of it is bound (R51). -/
theorem SpacesCanonical.storePrefix {s : State} (h : SpacesCanonical s) (hS : s.sSpace.holds 2 (s.bidx.toNat + 1) = true)
    (hB : s.bSpace.holds 2 (s.bidx.toNat + 1) = true) (hW : s.wSpace.holds 4 (s.wordBase + s.wpbk.toNat) = true) (k : Nat) :
    SpacesCanonical (s.storePrefix k) := by
  obtain ⟨hsrc, hw, hs, hb, hext⟩ := h
  have hW' : s.wSpace.holds 4 (s.wordBase + min s.wpbk.toNat (k - 2)) = true := by
    simp only [Space.holds, decide_eq_true_eq] at hW ⊢
    omega
  refine ⟨hsrc, storeWords_wf hw _ hW', ?_, ?_, hext⟩
  · show (if 1 ≤ k then s.sSpace.pokeHalf s.bidx.toNat s.scale else s.sSpace).wf = true
    split
    · exact Space.pokeHalf_wf hs _ hS
    · exact hs
  · show (if 2 ≤ k then s.bSpace.pokeHalf s.bidx.toNat s.bias else s.bSpace).wf = true
    split
    · exact Space.pokeHalf_wf hb _ hB
    · exact hb

/-- A reset inside a step keeps the invariant, wherever it falls (R281). -/
theorem StateInv.resetInStep {s t : State} (hs : StateInv s) {k : Nat} (h : resetInStep k s = .next t) : StateInv t := by
  obtain ⟨-, -, -, -, -, hspaces, hmaps⟩ := hs
  unfold Machine.resetInStep at h
  split at h
  · obtain ⟨⟨u, hu⟩, rfl⟩ := cutStore_next h
    obtain ⟨-, hS, hB, hW, -⟩ := stepStore_next hu
    exact stateInv_resetEvent (hspaces.storePrefix hS hB hW k) hmaps
  · cases h
    exact stateInv_resetEvent hspaces hmaps

/-! ## The invariant through the host's moves -/

/-- An idle machine keeps the invariant when other spaces in canonical form are bound (R43). -/
theorem StateInv.withSpaces {s : State} (h : StateInv s) (hb : s.busy = false) {src w sS b : Space}
    (hc : SpacesCanonical { s with srcSpace := src, wSpace := w, sSpace := sS, bSpace := b }) :
    StateInv { s with srcSpace := src, wSpace := w, sSpace := sS, bSpace := b } := by
  obtain ⟨hstatus, herr, -, -, -, -, hmaps⟩ := h
  exact stateInv_of_not_inBlock (s.inBlock_eq_false_iff.2 (.inl (s.busy_eq_false_iff.1 hb))) hstatus herr hc hmaps

theorem Buffer.toSpace_extent (b : Buffer) : b.toSpace.extent = b.size := by cases b <;> rfl

theorem SpacesCanonical.setSpace {s : State} (h : SpacesCanonical s) {id : SpaceId} {buffer : Buffer}
    (hsize : id = .src → buffer.size ≤ 2 ^ Config.addressBits) : SpacesCanonical (s.setSpace id buffer.toSpace) := by
  obtain ⟨hsrc, hw, hs, hb, hext⟩ := h
  have hbuf : buffer.toSpace.wf = true := Buffer.toSpace_wf buffer
  cases id with
  | src => exact ⟨hbuf, hw, hs, hb, (Buffer.toSpace_extent buffer).trans_le (hsize rfl)⟩
  | w => exact ⟨hsrc, hbuf, hs, hb, hext⟩
  | s => exact ⟨hsrc, hw, hbuf, hb, hext⟩
  | b => exact ⟨hsrc, hw, hs, hbuf, hext⟩

theorem SpacesCanonical.pokeElem {s : State} (h : SpacesCanonical s) {id : SpaceId} {i : Nat}
    (hin : (s.space id).holds (elemBytes id) (i + 1) = true) (v : Word) : SpacesCanonical (s.pokeElem id i v) := by
  obtain ⟨hsrc, hw, hs, hb, hext⟩ := h
  cases id with
  | src =>
    have hbyte : i + [v.extractLsb' 0 8].length ≤ s.srcSpace.extent := by
      simpa [State.space, elemBytes, Space.holds] using hin
    exact ⟨Space.pokeBytes_wf hsrc hbyte, hw, hs, hb, hext⟩
  | w => exact ⟨hsrc, Space.pokeWord_wf hw _ hin, hs, hb, hext⟩
  | s => exact ⟨hsrc, hw, Space.pokeHalf_wf hs _ hin, hb, hext⟩
  | b => exact ⟨hsrc, hw, hs, Space.pokeHalf_wf hb _ hin, hext⟩

/-- Insertions keep the keys of every map unique (R228, R231). -/
theorem MapKeysUnique.setMap_insertAll {s t : State} (h : MapKeysUnique s) {map : MapHandle} {entries : List (Key × Tensor)}
    (ht : t.maps = setMap s.maps map (insertAll (lookupMap s.maps map) entries).1) : MapKeysUnique t := by
  obtain ⟨hhandles, hkeys⟩ := h
  have hold : ((lookupMap s.maps map).map (·.1)).Nodup := by
    rcases lookupMap_mem s.maps map with hnil | hmem
    · simp [hnil]
    · exact hkeys _ hmem
  unfold MapKeysUnique
  rw [ht]
  refine ⟨setMap_nodup hhandles map _, fun p hp => ?_⟩
  rcases mem_setMap hp with rfl | hp
  · exact insertAll_nodup hold entries
  · exact hkeys p hp

/-- R29: a write to the descriptor takes effect only where the invariant asks nothing of it. -/
theorem StateInv.regStore {s : State} (h : StateInv s) (offset : Nat) (v : Word) : StateInv (s.regStore offset v) := by
  cases hl : s.locked with
  | true => rwa [State.regStore_locked hl]
  | false =>
    obtain ⟨hstatus, herr, -, -, -, hspaces, hmaps⟩ := h
    have hb : s.busy = false := (s.locked_eq_false_iff.1 hl).1
    rw [State.regStore_frame]
    exact stateInv_of_not_inBlock (s.inBlock_eq_false_iff.2 (.inl (s.busy_eq_false_iff.1 hb))) hstatus herr hspaces hmaps

/-- Every move of the host keeps the invariant. -/
theorem StateInv.hostMove {s t : State} (hs : StateInv s) (h : HostMove s t) : StateInv t := by
  have ⟨_, herr, hlatch, hloop, hbound, hspaces, hmaps⟩ := hs
  cases h with
  | lists => exact hs
  | regStore offset v => exact hs.regStore offset v
  | acknowledge hb =>
    exact stateInv_of_not_inBlock (s.inBlock_eq_false_iff.2 (.inl (s.busy_eq_false_iff.1 hb)))
      (.of_clear rfl rfl) (.of_clear rfl rfl) hspaces hmaps
  | start _ he =>
    exact stateInv_of_not_inBlock rfl (.of_clear rfl he) (.of_clear he (herr.errcode_eq_zero he)) hspaces hmaps
  | acknowledgeStart =>
    exact stateInv_of_not_inBlock rfl (.of_clear rfl rfl) (.of_clear rfl rfl) hspaces hmaps
  | bind hb hsize =>
    have hc := hspaces.setSpace hsize
    rw [State.setSpace_frame] at hc ⊢
    exact hs.withSpaces hb hc
  | writeElem hb hin v =>
    have hc := hspaces.pokeElem hin v
    rw [State.pokeElem_frame] at hc ⊢
    exact hs.withSpaces hb hc
  | insert map entries =>
    obtain ⟨hstatus, -⟩ := hs
    exact ⟨hstatus, herr, hlatch, hloop, hbound, hspaces, hmaps.setMap_insertAll rfl⟩

/-! ## The invariant through the engine's moves -/

/-- R186 to R188: a step from one block state to another that writes only the staging registers keeps the invariant. -/
theorem StateInv.withBlockRegs {s : State} (h : StateInv s) (hs : s.inBlock = true) (blk : Vector Byte 34)
    (scale bias : Half) (out : Vector Byte 32) (f : Fsm) :
    StateInv { s.withBlockRegs blk scale bias out with fsm := f } := by
  obtain ⟨hstatus, herr, hlatch, hloop, hbound, hspaces, hmaps⟩ := h
  have hbusy : s.busy = true := (Bool.and_eq_true_iff.1 hs).1
  obtain ⟨hd, he⟩ := hstatus.clear_of_busy hbusy
  exact ⟨.of_clear hd he, herr, fun _ => hlatch hs, fun _ => hloop hs, fun _ => hbound hs, hspaces, hmaps⟩

/-- R250, R251, R256: CHECK ends with the error recorded and no other status. -/
theorem StateInv.rejectJob {s : State} (h : StateInv s) (hf : s.fsm = .check) (e : EngineError) :
    StateInv (s.rejectJob e) := by
  obtain ⟨hstatus, -, -, -, -, hspaces, hmaps⟩ := h
  have hd : s.done = false := (hstatus.clear_of_busy (State.busy_of_fsm_ne (by simp [hf]))).1
  have herr : ErrcodeMatches (s.rejectJob e) := by cases e <;> simp [ErrcodeMatches, EngineError.code]
  exact stateInv_of_not_inBlock rfl (.of_not_busy rfl (.inl hd)) herr hspaces hmaps

/-- R192: a job of no blocks is done at once. -/
theorem StateInv.finishEmpty {s : State} (h : StateInv s) (hf : s.fsm = .check) (l : Latch) :
    StateInv { s.setUpJob l 0 with done := true, fsm := .idle } := by
  obtain ⟨hstatus, herr, -, -, -, hspaces, hmaps⟩ := h
  have he : s.err = false := (hstatus.clear_of_busy (State.busy_of_fsm_ne (by simp [hf]))).2
  exact stateInv_of_not_inBlock rfl (.of_not_busy rfl (.inr he)) herr hspaces hmaps

/-- R183: the set-up of CHECK is what the invariant asks of a job past CHECK. -/
theorem StateInv.launch {s : State} (h : StateInv s) (hf : s.fsm = .check) {l : Latch}
    (hl : latchOf s.qtype s.lit = some l) (hshape : shapeOk s.lastdim = true) (hn : blockCount s.lastdim s.outer ≠ 0)
    (hp : launchProblem s l (blockCount s.lastdim s.outer) = none) :
    StateInv { s.setUpJob l (blockCount s.lastdim s.outer) with fsm := .fetch } := by
  obtain ⟨hstatus, herr, -, -, -, hspaces, hmaps⟩ := h
  obtain ⟨hd, he⟩ := hstatus.clear_of_busy (State.busy_of_fsm_ne (by simp [hf]))
  have hnblk : (BitVec.ofNat 64 (blockCount s.lastdim s.outer)).toNat = blockCount s.lastdim s.outer := by
    have hlt : blockCount s.lastdim s.outer < 2 ^ 59 := blockCount_lt s.lastdim s.outer
    exact (BitVec.toNat_ofNat ..).trans (Nat.mod_eq_of_lt (by omega))
  have hmissing : missingSpace s l (blockCount s.lastdim s.outer) = none := ((launchProblem_eq_none s l _).1 hp).1
  refine ⟨.of_clear hd he, herr, fun _ => ⟨hl, hshape⟩, fun _ => ⟨hnblk, ?_⟩, fun _ => ?_, hspaces, hmaps⟩
  · exact (Nat.pos_of_ne_zero hn).trans_eq hnblk.symm
  · exact (congrArg (missingSpace s l) hnblk).trans hmissing

/-- R189: STORE ends the job, or leaves one block less to do. -/
theorem StateInv.store {s : State} (h : StateInv s) (hf : s.fsm = .store) (hS : s.sSpace.holds 2 (s.bidx.toNat + 1) = true)
    (hB : s.bSpace.holds 2 (s.bidx.toNat + 1) = true) (hW : s.wSpace.holds 4 (s.wordBase + s.wpbk.toNat) = true) :
    StateInv s.storeBlock.endBlock := by
  obtain ⟨hstatus, herr, hlatch, hloop, hbound, hspaces, hmaps⟩ := h
  obtain ⟨hd, he⟩ := hstatus.clear_of_busy (State.busy_of_fsm_ne (by simp [hf]))
  have hs : s.inBlock = true := s.inBlock_iff.2 (.inr (.inr (.inr hf)))
  have hc : SpacesCanonical s.storeBlock := hspaces.storePrefix hS hB hW _
  rcases s.storeBlock.endBlock_cases with ⟨_, e⟩ | ⟨hmore, e⟩ <;> rw [e]
  · exact stateInv_of_not_inBlock rfl (.of_not_busy rfl (.inr he)) herr hc hmaps
  · obtain ⟨hnblk, hlt⟩ := hloop hs
    have hlt' : (s.bidx + 1).toNat < s.nblk.toNat := by
      have hne : s.bidx + 1 ≠ s.nblk := hmore
      bv_omega
    have hmissing : missingSpace s.storeBlock s.latch s.nblk.toNat = none := by
      rw [missingSpace_congr (s := s) (by simp) (by simp) (by simp) (by simp)]
      exact hbound hs
    exact ⟨.of_clear hd he, herr, fun _ => hlatch hs, fun _ => ⟨hnblk, hlt'⟩, fun _ => hmissing, hc, hmaps⟩

/-- Every move of the engine keeps the invariant. -/
theorem StateInv.engineMove {s t : State} (hs : StateInv s) (h : EngineMove s t) : StateInv t := by
  cases h with
  | rest => exact hs
  | reject hf e => exact hs.rejectJob hf e
  | finishEmpty hf => exact hs.finishEmpty hf _
  | launch hf hl hshape hn hp => exact hs.launch hf hl hshape hn hp
  | fetch hf blk => exact hs.withBlockRegs (s.inBlock_iff.2 (.inl hf)) blk s.scale s.bias s.out _
  | header hf scale bias => exact hs.withBlockRegs (s.inBlock_iff.2 (.inr (.inl hf))) s.blk scale bias s.out _
  | codes hf out => exact hs.withBlockRegs (s.inBlock_iff.2 (.inr (.inr (.inl hf)))) s.blk s.scale s.bias out _
  | store hf hS hB hW => exact hs.store hf hS hB hW

/-- Settles O30: the turns, the host's actions still to come and what it has read are no part of the invariant, and each
move keeps it. -/
theorem stepKeepsInvariant : Obligations.StepKeepsInvariant := by
  intro s t hs h
  obtain ⟨turn, ts, e, -⟩ := step_eq_runTurn s
  rw [e] at h
  have hsched : StateInv { s with sched := ts } := hs
  cases turn with
  | host =>
    obtain ⟨rest, hmove⟩ := hostTurn_next h
    have hprog : StateInv { s with sched := ts, prog := rest } := hs
    exact hprog.hostMove hmove
  | engine => exact hsched.engineMove (engineTurn_next h)
  | reset =>
    cases h
    obtain ⟨-, -, -, -, -, hspaces, hmaps⟩ := hs
    exact stateInv_resetEvent hspaces hmaps
  | resetInStore k => exact hsched.resetInStep h

end Sys2Proof.Machine
end

section
/-! PROOFS. The memory spaces (R40 to R48): a canonical memory is determined by what it reads; what an element reads as after
an element write; what a bound buffer reads as. -/

namespace Sys2Proof.Machine

/-! ## The canonical form -/

theorem Memory.wfFrom_cons_iff {lo k : Nat} {v : Byte} {m : Memory} :
    Memory.wfFrom lo ((k, v) :: m) = true ↔ lo ≤ k ∧ v ≠ Config.unlistedByte ∧ Memory.wfFrom (k + 1) m = true := by
  simp [Memory.wfFrom, and_assoc]

/-- An address that does not read as unlisted is not below the least one. -/
theorem Memory.le_of_peek_ne {lo a : Nat} {m : Memory} (h : Memory.wfFrom lo m = true)
    (ha : Memory.peek m a ≠ Config.unlistedByte) : lo ≤ a :=
  Nat.le_of_not_lt fun hlt => ha (Memory.peek_below h hlt)

/-- Equal readings give equal lists: the heads stand at the same address, since each reads as listed there; the tails agree
below that address because both list nothing, and above it because the lists do. -/
theorem Memory.eq_of_peek_eq {lo lo' : Nat} {m m' : Memory} (h : Memory.wfFrom lo m = true)
    (h' : Memory.wfFrom lo' m' = true) (heq : ∀ a, Memory.peek m a = Memory.peek m' a) : m = m' := by
  induction m generalizing lo lo' m' with
  | nil =>
    cases m' with
    | nil => rfl
    | cons c' m' =>
      obtain ⟨k', v'⟩ := c'
      obtain ⟨-, hv', -⟩ := Memory.wfFrom_cons_iff.1 h'
      exact absurd (by simpa using (heq k').symm) hv'
  | cons c m ih =>
    obtain ⟨k, v⟩ := c
    obtain ⟨-, hv, hm⟩ := Memory.wfFrom_cons_iff.1 h
    have hk : Memory.peek m' k = v := by simpa using (heq k).symm
    cases m' with
    | nil => exact absurd hk.symm hv
    | cons c' m' =>
      obtain ⟨k', v'⟩ := c'
      obtain ⟨-, hv', hm'⟩ := Memory.wfFrom_cons_iff.1 h'
      have hk' : Memory.peek ((k, v) :: m) k' = v' := by simpa using heq k'
      have hle' : k' ≤ k := Memory.le_of_peek_ne (Memory.wfFrom_cons_iff.2 ⟨le_rfl, hv', hm'⟩) (hk ▸ hv)
      have hle : k ≤ k' := Memory.le_of_peek_ne (Memory.wfFrom_cons_iff.2 ⟨le_rfl, hv, hm⟩) (hk' ▸ hv')
      obtain rfl : k = k' := hle.antisymm hle'
      obtain rfl : v' = v := by simpa using hk
      have htail (a : Nat) : Memory.peek m a = Memory.peek m' a := by
        by_cases ha : k = a
        · rw [Memory.peek_below hm (by omega), Memory.peek_below hm' (by omega)]
        · simpa [ha] using heq a
      rw [ih hm hm' htail]

/-- Settles O45: both lists are canonical from address 0. -/
theorem canonicalMemoriesAreEqualData : Obligations.CanonicalMemoriesAreEqualData :=
  fun _ _ h h' heq => Memory.eq_of_peek_eq h h' heq

/-! ## Elements -/

/-- A written byte reads back. -/
theorem Space.peek_pokeBytes_add {sp : Space} (h : sp.wf = true) (a : Nat) (bs : List Byte) {j : Nat}
    (hj : j < bs.length) : (sp.pokeBytes a bs).peek (a + j) = bs[j] := by
  rw [Space.peek_pokeBytes h, if_pos (by omega), Nat.add_sub_cancel_left, List.getD_eq_getElem _ _ hj]

/-- An element of 16 bits is its two bytes (R48). -/
theorem Space.halfAt_congr {sp sp' : Space} {i : Nat}
    (h : ∀ a, 2 * i ≤ a → a < 2 * i + 2 → sp'.peek a = sp.peek a) : sp'.halfAt i = sp.halfAt i := by
  simp only [Space.halfAt, h (2 * i) (by omega) (by omega), h (2 * i + 1) (by omega) (by omega)]

/-- An element of 32 bits is its four bytes (R47). -/
theorem Space.wordAt_congr {sp sp' : Space} {i : Nat}
    (h : ∀ a, 4 * i ≤ a → a < 4 * i + 4 → sp'.peek a = sp.peek a) : sp'.wordAt i = sp.wordAt i := by
  have byte (j : Nat) (hj : j < 4) : sp'.peek (4 * i + j) = sp.peek (4 * i + j) := h _ (by omega) (by omega)
  simp only [Space.wordAt, byte 1 (by omega), byte 2 (by omega), byte 3 (by omega), h (4 * i) (by omega) (by omega)]

theorem half_eq_append_bytes (v : Half) : v.extractLsb' 8 8 ++ v.extractLsb' 0 8 = v := by
  rw [BitVec.extractLsb'_append_extractLsb'_eq_extractLsb' (by rfl), BitVec.extractLsb'_eq_self]

theorem word_eq_append_bytes (v : Word) :
    v.extractLsb' 24 8 ++ v.extractLsb' 16 8 ++ v.extractLsb' 8 8 ++ v.extractLsb' 0 8 = v := by
  iterate 3 rw [BitVec.extractLsb'_append_extractLsb'_eq_extractLsb' (by rfl)]
  exact BitVec.extractLsb'_eq_self

section ElementWrites
variable {sp : Space} (h : sp.wf = true) {i j : Nat}
include h

theorem Space.halfAt_pokeHalf_self (v : Half) : (sp.pokeHalf i v).halfAt i = v := by
  have byte (j : Nat) (hj : j < 2) : (sp.pokeHalf i v).peek (2 * i + j) = (halfBytes v)[j] :=
    Space.peek_pokeBytes_add h (2 * i) (halfBytes v) hj
  have low : (sp.pokeHalf i v).peek (2 * i) = v.extractLsb' 0 8 := byte 0 (by omega)
  rw [Space.halfAt, low, byte 1 (by omega)]
  exact half_eq_append_bytes v

theorem Space.wordAt_pokeWord_self (v : Word) : (sp.pokeWord i v).wordAt i = v := by
  have byte (j : Nat) (hj : j < 4) : (sp.pokeWord i v).peek (4 * i + j) = (wordBytes v)[j] :=
    Space.peek_pokeBytes_add h (4 * i) (wordBytes v) hj
  have low : (sp.pokeWord i v).peek (4 * i) = v.extractLsb' 0 8 := byte 0 (by omega)
  rw [Space.wordAt, low, byte 1 (by omega), byte 2 (by omega), byte 3 (by omega)]
  exact word_eq_append_bytes v

theorem Space.halfAt_pokeHalf_of_ne (v : Half) (hij : j ≠ i) : (sp.pokeHalf i v).halfAt j = sp.halfAt j :=
  Space.halfAt_congr fun _ _ _ => Space.peek_pokeHalf_of_outside h v (by omega)

theorem Space.wordAt_pokeWord_of_ne (v : Word) (hij : j ≠ i) : (sp.pokeWord i v).wordAt j = sp.wordAt j :=
  Space.wordAt_congr fun _ _ _ => Space.peek_pokeWord_of_outside h v (by omega)

end ElementWrites

/-- Settles O46: the written bytes join to the element, and the others are outside it. -/
theorem elementWritesReadBack : Obligations.ElementWritesReadBack := by
  intro sp i x v h
  exact ⟨Space.halfAt_pokeHalf_self h x, Space.wordAt_pokeWord_self h v,
    fun _ ha => Space.peek_pokeHalf_of_outside h x ha, fun _ ha => Space.peek_pokeWord_of_outside h v ha,
    fun _ hj => ⟨Space.halfAt_pokeHalf_of_ne h x hj, Space.wordAt_pokeWord_of_ne h v hj⟩⟩

/-! ## Reads -/

theorem Space.readByte_eq_some {sp : Space} {a : Nat} (h : a < sp.extent) : sp.readByte a = some (sp.peek a) := if_pos h

theorem Space.readByte_eq_none {sp : Space} {a : Nat} (h : sp.extent ≤ a) : sp.readByte a = none := if_neg (by omega)

/-- R44 with n = 2. -/
theorem memRead_two (sp : Space) (off : Nat) : memRead sp off 2 =
    (sp.readByte off).bind fun low => (sp.readByte (off + 1)).map fun high => low.toNat + 256 * high.toNat := by
  cases h0 : sp.readByte off <;> cases h1 : sp.readByte (off + 1) <;> simp [memRead, h0, h1]

/-- A low byte and a shifted high byte have no bit in common. -/
theorem add_mul_256_eq_or_shiftLeft (low high : Byte) :
    low.toNat + 256 * high.toNat = low.toNat ||| (high.toNat <<< 8) := by
  rw [Nat.or_comm, ← Nat.shiftLeft_add_eq_or_of_lt low.isLt, Nat.shiftLeft_eq]
  omega

/-- Settles O47: past the extent the second byte, or both, is not bound. -/
theorem twoByteReadIsLittleEndian : Obligations.TwoByteReadIsLittleEndian := by
  intro sp off
  rw [memRead_two]
  constructor
  · intro hin
    rw [Space.readByte_eq_some (by omega), Space.readByte_eq_some (by omega), ← add_mul_256_eq_or_shiftLeft]
    rfl
  · intro hout
    rw [Space.readByte_eq_none (a := off + 1) (by omega)]
    cases sp.readByte off <;> rfl

theorem Space.ofBytes_eq_pokeBytes (bytes : List Byte) :
    Space.ofBytes bytes = (Space.fresh bytes.length).pokeBytes 0 bytes := rfl

/-- A space bound to given bytes reads each of them, and nothing past the last (R41, R60). -/
theorem Space.readByte_ofBytes (bytes : List Byte) (a : Nat) : (Space.ofBytes bytes).readByte a = bytes[a]? := by
  by_cases ha : a < bytes.length
  · have hpeek : (Space.ofBytes bytes).peek a = bytes[a] := by
      simpa [Space.ofBytes_eq_pokeBytes] using Space.peek_pokeBytes_add (Space.fresh_wf bytes.length) 0 bytes ha
    rw [Space.readByte_eq_some ha, hpeek, List.getElem?_eq_getElem ha]
  · have ha : bytes.length ≤ a := by omega
    rw [Space.readByte_eq_none ha, List.getElem?_eq_none ha]

/-- Settles O48: the space is a fresh container into which the bytes are written. -/
theorem boundBufferReadsAsItsBytes : Obligations.BoundBufferReadsAsItsBytes :=
  fun bytes a => ⟨Space.readByte_ofBytes bytes a, Buffer.toSpace_wf (.bytes bytes)⟩

end Sys2Proof.Machine
end

section
/-! PROOFS. A reset inside STORE (R51, R189, R281): what the first `k` writes of STORE leave in each space, and the turn that
cuts STORE there. -/

namespace Sys2Proof.Machine

/-! ## The words of a block -/

theorem Space.holds_mono {sp : Space} {width m n : Nat} (hle : m ≤ n) (h : sp.holds width n = true) :
    sp.holds width m = true := by
  simp only [Space.holds, decide_eq_true_eq] at h ⊢
  exact (Nat.mul_le_mul_left width hle).trans h

/-- Word `j` of the block after the W writes of STORE (R189): the staged word below WPBK, else the old one. -/
theorem storeWords_wordAt {sp : Space} (h : sp.wf = true) {base wpbk : Nat} (out : Vector Byte 32)
    (hin : sp.holds 4 (base + wpbk) = true) (j : Fin 8) :
    (storeWords sp base wpbk out).wordAt (base + j.val) =
      if j.val < wpbk then repack32 out j else sp.wordAt (base + j.val) := by
  suffices hks : ∀ ks : List (Fin 8), (ks.foldl (fun sp k => if k.val < wpbk then
      sp.pokeWord (base + k.val) (repack32 out k) else sp) sp).wordAt (base + j.val) =
      if j ∈ ks ∧ j.val < wpbk then repack32 out j else sp.wordAt (base + j.val) by
    simpa [storeWords] using hks (List.finRange 8)
  intro ks
  induction ks generalizing sp with
  | nil => simp
  | cons k ks ih =>
    rw [List.foldl_cons]
    by_cases hk : k.val < wpbk
    · have hbound : sp.holds 4 (base + k.val + 1) = true := Space.holds_mono (by omega) hin
      rw [if_pos hk, ih (Space.pokeWord_wf h _ hbound) hin]
      by_cases hjk : j = k
      · subst hjk
        simp [hk, Space.wordAt_pokeWord_self h]
      · have hne : base + j.val ≠ base + k.val := fun e => hjk (Fin.ext (by omega))
        simp [hjk, Space.wordAt_pokeWord_of_ne h _ hne]
    · rw [if_neg hk, ih h hin]
      by_cases hjk : j = k
      · subst hjk
        simp [hk]
      · simp [hjk]

/-! ## The first `k` writes of STORE -/

section StorePrefix
variable {s : State} (hc : SpacesCanonical s) (k : Nat)
include hc

/-- The scale is the first write. -/
theorem State.storePrefix_halfAt_sSpace : (s.storePrefix k).sSpace.halfAt s.bidx.toNat =
    if 1 ≤ k then s.scale else s.sSpace.halfAt s.bidx.toNat := by
  obtain ⟨-, -, hS, -, -⟩ := hc
  simp only [State.storePrefix]
  split
  · exact Space.halfAt_pokeHalf_self hS s.scale
  · rfl

/-- The bias is the second write. -/
theorem State.storePrefix_halfAt_bSpace : (s.storePrefix k).bSpace.halfAt s.bidx.toNat =
    if 2 ≤ k then s.bias else s.bSpace.halfAt s.bidx.toNat := by
  obtain ⟨-, -, -, hB, -⟩ := hc
  simp only [State.storePrefix]
  split
  · exact Space.halfAt_pokeHalf_self hB s.bias
  · rfl

variable (hW : s.wSpace.holds 4 (s.wordBase + s.wpbk.toNat) = true)
include hW

/-- The words follow, in ascending index. -/
theorem State.storePrefix_wordAt (j : Fin 8) (hj : j.val < s.wpbk.toNat) :
    (s.storePrefix k).wSpace.wordAt (s.wordBase + j.val) =
      if j.val + 2 < k then repack32 s.out j else s.wSpace.wordAt (s.wordBase + j.val) := by
  obtain ⟨-, hw, -, -, -⟩ := hc
  have hin : s.wSpace.holds 4 (s.wordBase + min s.wpbk.toNat (k - 2)) = true := Space.holds_mono (by omega) hW
  have hcount : j.val < min s.wpbk.toNat (k - 2) ↔ j.val + 2 < k := by omega
  simp only [State.storePrefix, storeWords_wordAt hw s.out hin j, hcount]

/-- Part of STORE writes the elements of its own block and no other byte (R53). -/
theorem State.storePrefix_onlyBlockWritten : OnlyBlockWritten s (s.storePrefix k) s.latch s.bidx.toNat := by
  obtain ⟨-, hw, hS, hB, -⟩ := hc
  have hin : s.wSpace.holds 4 (s.wordBase + min s.wpbk.toNat (k - 2)) = true := Space.holds_mono (by omega) hW
  refine ⟨rfl, ?_, ?_, ?_, fun a ha => ?_, fun a ha => ?_, fun a ha => ?_⟩
  · simp only [State.storePrefix]
    split <;> rfl
  · simp only [State.storePrefix]
    split <;> rfl
  · simp [State.storePrefix]
  · simp only [State.storePrefix]
    split
    · exact Space.peek_pokeHalf_of_outside hS _ ha
    · rfl
  · simp only [State.storePrefix]
    split
    · exact Space.peek_pokeHalf_of_outside hB _ ha
    · rfl
  · have ha' : a < 4 * s.wordBase ∨ 4 * (s.wordBase + min s.wpbk.toNat (k - 2)) ≤ a := by
      simp only [State.wordBase, State.latch] at ha ⊢
      omega
    exact storeWords_peek_of_outside hw s.out hin ha'

end StorePrefix

/-! ## The turn that cuts STORE -/

section ResetInStore
variable {s : State} {ts : List Turn} {k : Nat} (hsched : s.sched = .resetInStore k :: ts)
include hsched

theorem step_resetInStore : step s = resetInStep k { s with sched := ts } := by
  rw [step, takeTurn, hsched]
  rfl

/-- Outside STORE the turn is the plain reset (R280). -/
theorem step_resetInStore_of_fsm_ne (hf : s.fsm ≠ .store) : step s = .next ({ s with sched := ts } : State).resetEvent :=
  (step_resetInStore hsched).trans (if_neg hf)

/-- Where STORE has a meaning, the reset that cuts it leaves its first `k` writes (R281). -/
theorem step_resetInStore_of_store (hf : s.fsm = .store) {u : State} (h : stepStore { s with sched := ts } = .next u) :
    step s = .next (({ s with sched := ts } : State).storePrefix k).resetEvent := by
  rw [step_resetInStore hsched, resetInStep, if_pos hf, cutStore, h]

end ResetInStore

theorem State.endBlock_spaces (s : State) :
    s.endBlock.sSpace = s.sSpace ∧ s.endBlock.bSpace = s.bSpace ∧ s.endBlock.wSpace = s.wSpace := by
  rcases s.endBlock_cases with ⟨-, e⟩ | ⟨-, e⟩ <;> rw [e] <;> exact ⟨rfl, rfl, rfl⟩

/-- Settles O57: the turn is the reset after the first writes of STORE, and a reset keeps the memory. -/
theorem resetInStoreLeavesAPrefix : Obligations.ResetInStoreLeavesAPrefix := by
  intro s ts k hsched
  refine ⟨step_resetInStore_of_fsm_ne hsched, fun hf hc hwpbk hS hB hW => ?_⟩
  have hstore : stepStore s = .next s.storeBlock.endBlock := stepStore_eq_next hwpbk hS hB hW
  have hcut : stepStore { s with sched := ts } = .next ({ s with sched := ts } : State).storeBlock.endBlock :=
    stepStore_eq_next hwpbk hS hB hW
  refine ⟨_, step_resetInStore_of_store hsched hf hcut,
    rfl, rfl, rfl, rfl, rfl, rfl, rfl, rfl, rfl, rfl, rfl, rfl, rfl, rfl, rfl,
    State.storePrefix_onlyBlockWritten hc k hW, State.storePrefix_halfAt_sSpace hc k,
    State.storePrefix_halfAt_bSpace hc k, State.storePrefix_wordAt hc k hW, fun hk => ?_⟩
  obtain ⟨hall_s, hall_b, hall_w⟩ := State.storePrefix_all hk
  obtain ⟨hend_s, hend_b, hend_w⟩ := s.storeBlock.endBlock_spaces
  exact ⟨s.storeBlock.endBlock, (engineTurn_of_store hf).trans hstore, hall_s.trans hend_s.symm, hall_b.trans hend_b.symm,
    hall_w.trans hend_w.symm⟩

end Sys2Proof.Machine
end

section
/-! PROOFS. Encoding (R12, R16, R79 to R82, R84): what FLAGS keeps of a word, what a descriptor and a CTRL word decode to, and
that decoder and encoder are inverse to each other. -/

namespace Sys2Proof

/-! ## The bits of FLAGS -/

theorem flagsKept_eq_flagBit (v : Word) : flagsKept v = Machine.flagBit (v.getLsbD 0) 0 :=
  (Machine.flagBit_getLsbD_zero v).symm

/-- The words with bits 31:1 at 0 are those that FLAGS keeps whole (R16). -/
theorem flagsReservedZero_iff (v : Word) : flagsReservedZero v = true ↔ flagsKept v = v := by
  have hlow (i : Nat) : (flagsKept v).getLsbD i = (v.getLsbD 0 && decide (i = 0 ∧ i < 32)) := by
    rw [flagsKept_eq_flagBit, Machine.flagBit_getLsbD]
  simp only [flagsReservedZero, beq_iff_eq]
  constructor
  · intro h
    refine BitVec.eq_of_getLsbD_eq fun i hi => (hlow i).trans ?_
    cases i with
    | zero => simp
    | succ i =>
      have hbit : (v.extractLsb' 1 31).getLsbD i = false := by simp [h]
      rw [BitVec.getLsbD_extractLsb', Nat.add_comm 1 i] at hbit
      simpa [show i < 31 by omega] using hbit.symm
  · intro h
    refine BitVec.eq_of_getLsbD_eq fun i hi => ?_
    rw [BitVec.getLsbD_extractLsb', ← h, hlow]
    simp

@[simp] theorem flagsReservedZero_flagsKept (v : Word) : flagsReservedZero (flagsKept v) = true :=
  (flagsReservedZero_iff _).2 (by rw [flagsKept, flagsKept, BitVec.and_assoc, BitVec.and_self])

/-! ## Descriptors -/

section Descriptor
variable {q : Word} (f l o t : Word)

theorem decodeDescriptor_q40 : decodeDescriptor 2 f l o t = .ok (.decQ40 (flagsKept f) l o t) := rfl

/-- With QT = 3, FLAGS bit 0 chooses the operation (R81). -/
theorem decodeDescriptor_q41 :
    decodeDescriptor 3 f l o t = .ok (if f.getLsbD 0 then .decQ41L l o t else .decQ41 l o t) :=
  (apply_ite Except.ok _ _ _).symm

theorem decodeDescriptor_q80 : decodeDescriptor 8 f l o t = .ok (.decQ80 (flagsKept f) l o t) := rfl

theorem decodeDescriptor_unsupported (h2 : q ≠ 2) (h3 : q ≠ 3) (h8 : q ≠ 8) :
    decodeDescriptor q f l o t = .error (.unsupportedType q) :=
  (if_neg h2).trans ((if_neg h3).trans (if_neg h8))

/-- The supported types are 2, 3 and 8 (R82). -/
theorem exists_decodeDescriptor_iff : (∃ i, decodeDescriptor q f l o t = .ok i) ↔ q = 2 ∨ q = 3 ∨ q = 8 := by
  constructor
  · rintro ⟨i, hi⟩
    by_contra! hq
    obtain ⟨h2, h3, h8⟩ := hq
    rw [decodeDescriptor_unsupported f l o t h2 h3 h8] at hi
    cases hi
  · rintro (rfl | rfl | rfl)
    · exact ⟨_, decodeDescriptor_q40 f l o t⟩
    · exact ⟨_, decodeDescriptor_q41 f l o t⟩
    · exact ⟨_, decodeDescriptor_q80 f l o t⟩

end Descriptor

/-! ## CTRL words -/

/-- A CTRL word from its ignored bits 31:2, its ACK bit and its START bit (R12). -/
def ctrlWord (reserved : BitVec 30) (ack start : Bool) : Word := reserved ++ BitVec.ofBool ack ++ BitVec.ofBool start

theorem encode_start (ackFirst : Bool) (reserved : BitVec 30) :
    encode (.start ackFirst reserved) = [ctrlWord reserved ackFirst true] := rfl

theorem encode_ack (reserved : BitVec 30) : encode (.ack reserved) = [ctrlWord reserved true false] := rfl

section CtrlWord
variable (r : BitVec 30) (a b : Bool)

theorem ctrlWord_getLsbD (i : Nat) :
    (ctrlWord r a b).getLsbD i = if i = 0 then b else if i = 1 then a else r.getLsbD (i - 2) := by
  have houter : (ctrlWord r a b).getLsbD i =
      if i < 1 then (BitVec.ofBool b).getLsbD i else (r ++ BitVec.ofBool a).getLsbD (i - 1) := BitVec.getLsbD_append
  rw [houter, BitVec.getLsbD_append]
  match i with
  | 0 => simp
  | 1 => simp
  | i + 2 => simp

theorem ctrlWord_reserved : (ctrlWord r a b).extractLsb' 2 30 = r := by
  refine BitVec.eq_of_getLsbD_eq fun i hi => ?_
  rw [BitVec.getLsbD_extractLsb', Nat.add_comm 2 i, ctrlWord_getLsbD]
  simp [hi]

/-- Every word is the CTRL word of its own bits. -/
theorem ctrlWord_self (v : Word) : ctrlWord (v.extractLsb' 2 30) (v.getLsbD 1) (v.getLsbD 0) = v := by
  refine BitVec.eq_of_getLsbD_eq fun i hi => ?_
  rw [ctrlWord_getLsbD]
  match i with
  | 0 => rfl
  | 1 => rfl
  | i + 2 => simp [show i < 30 by omega, Nat.add_comm 2 i]

/-- The two command bits choose the command, and the ignored bits are kept as its operand (R12, R84). -/
theorem decode_ctrlWord : decode .cmd [ctrlWord r a b] =
    if b then .ok (.start a r) else if a then .ok (.ack r) else .error (.noCommand (ctrlWord r a b)) := by
  simp only [decode, decodeCommand, ctrlWord_getLsbD, ctrlWord_reserved, if_true, one_ne_zero, if_false]

end CtrlWord

/-! ## The obligations -/

/-- Settles O1, by cases on the instruction: each row's words decode to the row, and a well-formed FLAGS word is kept whole. -/
theorem decodeEncodeRoundTrip : Obligations.DecodeEncodeRoundTrip := by
  intro i hwf
  cases i with
  | decQ40 f l o t =>
    have hkept : flagsKept f = f := (flagsReservedZero_iff f).1 hwf
    exact (decodeDescriptor_q40 f l o t).trans (by rw [hkept])
  | decQ41 l o t => exact decodeDescriptor_q41 0 l o t
  | decQ41L l o t => exact decodeDescriptor_q41 1 l o t
  | decQ80 f l o t =>
    have hkept : flagsKept f = f := (flagsReservedZero_iff f).1 hwf
    exact (decodeDescriptor_q80 f l o t).trans (by rw [hkept])
  | start a r => rw [encode_start]; exact decode_ctrlWord r a true
  | ack r => rw [encode_ack]; exact decode_ctrlWord r true false

/-- A command that is decoded encodes to the word it was read from. -/
theorem encode_of_decode_ctrlWord {r : BitVec 30} {a b : Bool} {i : Instr} (h : decode .cmd [ctrlWord r a b] = .ok i) :
    i.wf = true ∧ i.format = .cmd ∧ encode i = [ctrlWord r a b] := by
  rw [decode_ctrlWord] at h
  cases b with
  | true => cases h; exact ⟨rfl, rfl, encode_start a r⟩
  | false =>
    cases a with
    | true => cases h; exact ⟨rfl, rfl, encode_ack r⟩
    | false => cases h

/-- An operation that is decoded encodes to the descriptor it was read from, as the registers keep it. -/
theorem encode_of_decodeDescriptor {q f l o t : Word} {i : Instr} (h : decodeDescriptor q f l o t = .ok i) :
    i.wf = true ∧ i.format = .jd ∧ encode i = [q, flagsKept f, l, o, t] := by
  rcases (exists_decodeDescriptor_iff f l o t).1 ⟨i, h⟩ with rfl | rfl | rfl
  · cases h
    exact ⟨flagsReservedZero_flagsKept f, rfl, rfl⟩
  · rw [decodeDescriptor_q41] at h
    rw [flagsKept_eq_flagBit]
    generalize f.getLsbD 0 = lit at h ⊢
    cases lit <;> cases h <;> exact ⟨rfl, rfl, rfl⟩
  · cases h
    exact ⟨flagsReservedZero_flagsKept f, rfl, rfl⟩

/-- Settles O2: every word is the CTRL word of its bits, and a descriptor is encoded as the registers keep it. -/
theorem encodeDecodeRoundTrip : Obligations.EncodeDecodeRoundTrip := by
  refine ⟨fun v i h => ?_, fun q f l o t i h => encode_of_decodeDescriptor h⟩
  rw [← ctrlWord_self v] at h ⊢
  exact encode_of_decode_ctrlWord h

/-- Settles O4: the equations of the decoder, one for each supported QT and one for the others. -/
theorem descriptorDecodesExactlyThreeTypes : Obligations.DescriptorDecodesExactlyThreeTypes := by
  intro q f l o t
  refine ⟨(exists_decodeDescriptor_iff f l o t).symm, decodeDescriptor_unsupported f l o t, ?_⟩
  rintro rfl
  rw [decodeDescriptor_q41]
  cases f.getLsbD 0 <;> simp

/-- Settles O3: each word is decoded as it is written out. -/
theorem specWordsDecode : Obligations.SpecWordsDecode := by
  unfold Obligations.SpecWordsDecode
  decide

end Sys2Proof
end

section
/-! PROOFS. The DEC line (R86): its register writes as one list, what a run of register writes leaves in the registers, and the
START at its end. -/

namespace Sys2Proof.Machine

/-! ## Steps of the host alone -/

theorem run_succ_of_step {s u : State} (h : step s = .next u) (k : Nat) :
    Sys2Proof.core.run (k + 1) s = Sys2Proof.core.run k u := by
  have hstep : Sys2Proof.core.step s = .next u := h
  simp only [Host.Core.run, hstep]

/-- The state with another program for the host. -/
def State.withProg (s : State) (prog : List HostOp) : State := { s with prog := prog }

@[simp] theorem State.withProg_busy (s : State) (prog : List HostOp) : (s.withProg prog).busy = s.busy := rfl

/-- With no turn fixed in advance, an action that need not wait is the next step (R193). -/
theorem step_withProg_cons {s : State} (hsched : s.sched = []) {op : HostOp} (hpoll : op.polls = false)
    (rest : List HostOp) : step (s.withProg (op :: rest)) = runHostOp op (s.withProg rest) := by
  simp [step, takeTurn, State.withProg, hsched, State.fairTurn, State.hostReady, runTurn, hostTurn, hpoll]

/-- The START that ends a DEC line is a launch, when the engine is idle (R181). -/
theorem hostRegWrite_startValue {s : State} (hb : s.busy = false) :
    hostRegWrite ctrlOffset startValue s = .next s.launch := by
  have hstart : hostRegWrite ctrlOffset startValue s = execStart false 0 s := rfl
  simp [hstart, execStart, hb]

/-- A DEC line is expanded in one step (R86). -/
theorem step_withProg_dec {s : State} (hsched : s.sched = []) (q : Word) (lit : Option Bool) (g o l : Word)
    (rest : List HostOp) : step (s.withProg (.dec q lit g o l :: rest)) = .next (s.withProg (decLine q lit g o l ++ rest)) :=
  step_withProg_cons hsched rfl rest

/-! ## A run of register writes -/

/-- The offsets of the block but that of CTRL: a write there is a `State.regStore`. -/
def StoreOffset (offset : Nat) : Prop := offset % 4 = 0 ∧ offset < 0x20 ∧ offset ≠ 0x00

theorem State.regStore_withProg (s : State) (prog : List HostOp) (offset : Nat) (v : Word) :
    (s.withProg prog).regStore offset v = (s.regStore offset v).withProg prog := by
  have hl : (s.withProg prog).locked = s.locked := rfl
  simp only [State.regStore, hl]
  split_ifs <;> rfl

theorem step_withProg_regWrite {s : State} (hsched : s.sched = []) {offset : Nat} (hoffset : StoreOffset offset) (v : Word)
    (rest : List HostOp) :
    step (s.withProg (.regWrite offset v :: rest)) = .next ((s.regStore offset v).withProg rest) := by
  obtain ⟨h4, hlt, h0⟩ := hoffset
  rw [step_withProg_cons hsched rfl, runHostOp, hostRegWrite_eq_regStore h4 hlt h0, State.regStore_withProg]

/-- Several register writes as actions of the host. -/
def regWriteOps (writes : List (Nat × Word)) : List HostOp := writes.map fun w => .regWrite w.1 w.2

/-- The registers after several writes, the first of the list first. -/
def State.regStores (s : State) (writes : List (Nat × Word)) : State :=
  writes.foldl (fun s w => s.regStore w.1 w.2) s

theorem State.regStores_append (s : State) (ws ws' : List (Nat × Word)) :
    s.regStores (ws ++ ws') = (s.regStores ws).regStores ws' := List.foldl_append

theorem State.regStore_sched_fsm (s : State) (offset : Nat) (v : Word) :
    (s.regStore offset v).sched = s.sched ∧ (s.regStore offset v).fsm = s.fsm := by
  rw [State.regStore_frame]
  exact ⟨rfl, rfl⟩

theorem State.regStores_sched_fsm (s : State) (writes : List (Nat × Word)) :
    (s.regStores writes).sched = s.sched ∧ (s.regStores writes).fsm = s.fsm := by
  induction writes generalizing s with
  | nil => exact ⟨rfl, rfl⟩
  | cons w ws ih =>
    obtain ⟨hsched, hfsm⟩ := s.regStore_sched_fsm w.1 w.2
    exact (ih (s.regStore w.1 w.2)).imp (·.trans hsched) (·.trans hfsm)

theorem State.regStores_locked {s : State} (h : s.locked = true) (writes : List (Nat × Word)) : s.regStores writes = s := by
  induction writes with
  | nil => rfl
  | cons w ws ih =>
    rw [State.regStores, List.foldl_cons, State.regStore_locked h]
    exact ih

/-- The register writes at the head of a program are carried out one step each, in their order. -/
theorem run_regStores (k : Nat) (rest : List HostOp) {writes : List (Nat × Word)} {s : State} (hsched : s.sched = [])
    (hoffsets : ∀ w ∈ writes, StoreOffset w.1) :
    Sys2Proof.core.run (k + writes.length) (s.withProg (regWriteOps writes ++ rest)) =
      Sys2Proof.core.run k ((s.regStores writes).withProg rest) := by
  induction writes generalizing s with
  | nil => rfl
  | cons w ws ih =>
    obtain ⟨hw, hws⟩ := List.forall_mem_cons.1 hoffsets
    have hsched' : (s.regStore w.1 w.2).sched = [] := (s.regStore_sched_fsm w.1 w.2).1.trans hsched
    calc Sys2Proof.core.run (k + ws.length + 1) (s.withProg (.regWrite w.1 w.2 :: (regWriteOps ws ++ rest)))
        = Sys2Proof.core.run (k + ws.length) ((s.regStore w.1 w.2).withProg (regWriteOps ws ++ rest)) :=
          run_succ_of_step (step_withProg_regWrite hsched hw _ _) _
      _ = Sys2Proof.core.run k (((s.regStore w.1 w.2).regStores ws).withProg rest) := ih hsched' hws

/-! ## The line -/

/-- R86: what a DEC line writes before its START. -/
def decWrites (q : Word) (lit : Option Bool) (g o l : Word) : List (Nat × Word) :=
  [(tagOffset, g), (outerOffset, o), (lastdimOffset, l)] ++ lit.toList.map (fun b => (flagsOffset, flagBit b 0)) ++
    [(qtypeOffset, q)]

section DecWrites
variable (q : Word) (lit : Option Bool) (g o l : Word)

theorem decLine_eq_decWrites :
    decLine q lit g o l = regWriteOps (decWrites q lit g o l) ++ [.regWrite ctrlOffset startValue] := by
  cases lit <;> rfl

theorem decWrites_length : (decWrites q lit g o l).length = 4 + lit.toList.length := by
  cases lit <;> rfl

theorem decWrites_offsets : ∀ w ∈ decWrites q lit g o l, StoreOffset w.1 := by
  cases lit <;> simp [decWrites, StoreOffset, tagOffset, outerOffset, lastdimOffset, flagsOffset, qtypeOffset]

/-- Unlocked, the writes leave the line's operands in the registers; FLAGS keeps its value where the line has none. -/
theorem State.regStores_decWrites {s : State} (h : s.locked = false) : s.regStores (decWrites q lit g o l) = { s with
    qtype := q, lit := lit.getD s.lit, lastdim := l, outer := o, tag := g
    flagsChosen := lit.isSome || s.flagsChosen } := by
  let u : State := { s with lastdim := l, outer := o, tag := g }
  have hshape : s.regStores [(tagOffset, g), (outerOffset, o), (lastdimOffset, l)] = u := by
    show ((s.regStore 0x1C g).regStore 0x18 o).regStore 0x14 l = u
    rw [State.regStore_tag h, State.regStore_outer (s := { s with tag := g }) h]
    exact State.regStore_lastdim (s := { s with tag := g, outer := o }) h l
  rw [decWrites, List.append_assoc, State.regStores_append, hshape]
  cases lit with
  | none => exact State.regStore_qtype (s := u) h q
  | some b =>
    have hbit : (flagBit b 0).getLsbD 0 = b := (flagBit_getLsbD b 0 0).trans (by simp)
    show (u.regStore 0x10 (flagBit b 0)).regStore 0x0C q = _
    rw [State.regStore_flags (s := u) h, hbit]
    exact State.regStore_qtype (s := { u with lit := b, flagsChosen := true }) h q

/-- A line in IDLE writes its registers and launches: a step for the line itself, one for each write, one for the START. -/
theorem run_decLine {s : State} (hf : s.fsm = .idle) (hsched : s.sched = []) (rest : List HostOp) :
    Sys2Proof.core.run (6 + lit.toList.length) (s.withProg (.dec q lit g o l :: rest)) =
      .next ((s.regStores (decWrites q lit g o l)).withProg rest).launch := by
  let u : State := s.regStores (decWrites q lit g o l)
  obtain ⟨husched, hufsm⟩ := s.regStores_sched_fsm (decWrites q lit g o l)
  have hstart : step (u.withProg (.regWrite ctrlOffset startValue :: rest)) = .next (u.withProg rest).launch := by
    have hbusy : (u.withProg rest).busy = false := by rw [State.withProg_busy, State.busy_eq_false_iff, hufsm, hf]
    rw [step_withProg_cons (husched.trans hsched) rfl, runHostOp, hostRegWrite_startValue hbusy]
  have hlength : 6 + lit.toList.length = 0 + 1 + (decWrites q lit g o l).length + 1 := by
    rw [decWrites_length]
    omega
  rw [hlength, run_succ_of_step (step_withProg_dec hsched q lit g o l rest), decLine_eq_decWrites, List.append_assoc,
    List.singleton_append, run_regStores _ _ hsched (decWrites_offsets q lit g o l), run_succ_of_step hstart]
  rfl

end DecWrites

/-- Settles O56: unlocked, the line's writes take effect and its START opens the job; locked, all of them are ignored. -/
theorem decLineLaunchesItsDescriptor : Obligations.DecLineLaunchesItsDescriptor := by
  intro q g o l lit s hf hsched hprog
  have hrun := run_decLine q lit g o l hf hsched []
  have hline : s.withProg [.dec q lit g o l] = s := by rw [← hprog]; rfl
  rw [hline] at hrun
  refine ⟨fun he => hrun.trans ?_, fun he => hrun.trans ?_⟩
  · have hunlocked : s.locked = false := s.locked_eq_false_iff.2 ⟨s.busy_eq_false_iff.2 hf, he⟩
    rw [State.regStores_decWrites q lit g o l hunlocked]
    simp [State.withProg, State.launch, he]
  · have hlocked : s.locked = true := by simp [State.locked, he]
    rw [State.regStores_locked hlocked]
    simp [State.withProg, State.launch, he]

end Sys2Proof.Machine
end

section
/-! PROOFS. The unpacker and the interleaver (R100 to R107): a pass of NUNPACK ORs into an output byte just the codes that
belong there, so each output byte is two logical codes side by side; the pair law of NPACK and NUNPACK follows from where the
codes are, with no further look at the passes. -/

namespace Sys2Proof.Machine

/-! ## Two nibbles in one byte -/

theorem and_low_mask_shiftLeft_and_self (x y : Byte) : (x &&& (0x0F : Byte)) &&& ((y &&& (0x0F : Byte)) <<< 4) = 0 := by
  ext i hi
  interval_cases i <;> simp

theorem shiftRight_and_high_mask (x y : Byte) : (x >>> 4) &&& (y &&& (0xF0 : Byte)) = 0 := by
  ext i hi
  interval_cases i <;> simp

theorem shiftRight_shiftLeft_four (x : Byte) : (x >>> 4) <<< 4 = x &&& (0xF0 : Byte) := by
  ext i hi
  interval_cases i <;> simp

/-- A nibble of a byte as a number: the high one needs no mask. -/
theorem shiftRight_four_and_low_mask (x : Byte) : (x >>> 4) &&& (0x0F : Byte) = x >>> 4 := by
  ext i hi
  interval_cases i <;> simp

theorem low_or_high_nibble (x : Byte) : (x &&& (0x0F : Byte)) ||| ((x >>> 4) <<< 4) = x := by
  ext i hi
  interval_cases i <;> simp

theorem or_shiftLeft_and_low_mask (x y : Byte) : (x ||| (y <<< 4)) &&& (0x0F : Byte) = x &&& (0x0F : Byte) := by
  ext i hi
  interval_cases i <;> simp

theorem or_shiftLeft_shiftRight {x : Byte} (hx : x &&& (0x0F : Byte) = x) (y : Byte) :
    (x ||| (y <<< 4)) >>> 4 = y &&& (0x0F : Byte) := by
  rw [← hx]
  ext i hi
  interval_cases i <;> simp

/-! ## The codes of a wire block and of dense bytes -/

/-- R75: codes 0 to 15 are the low nibbles of the wire bytes. -/
theorem wireCode_low (s : Vector Byte 16) {j : Nat} (hj : j < 16) : wireCode s ⟨j, by omega⟩ = s[j] &&& 0x0F :=
  dif_pos hj

/-- R75: codes 16 to 31 are their high nibbles. -/
theorem wireCode_high (s : Vector Byte 16) {j : Nat} (hj : j < 16) : wireCode s ⟨16 + j, by omega⟩ = s[j] >>> 4 := by
  simp [wireCode]

/-- Code `16h + j` is half `h` of wire byte `j`. -/
theorem wireCode_half (s : Vector Byte 16) (j : Fin 16) (h : Fin 2) :
    wireCode s ⟨16 * h.val + j.val, by omega⟩ = (s[j.val] >>> (4 * h.val)) &&& 0x0F := by
  match h with
  | 0 => simpa using wireCode_low s j.isLt
  | 1 => exact (wireCode_high s j.isLt).trans (shiftRight_four_and_low_mask _).symm

theorem wireCode_and_low_mask (s : Vector Byte 16) (k : Fin 32) : wireCode s k &&& 0x0F = wireCode s k := by
  unfold wireCode
  split
  · rw [BitVec.and_assoc, BitVec.and_self]
  · exact shiftRight_four_and_low_mask _

theorem denseNibble_even (o : Vector Byte 16) {k : Fin 32} (hk : k.val % 2 = 0) :
    denseNibble o k = o[k.val / 2] &&& 0x0F := by
  simp [denseNibble, hk]

theorem denseNibble_odd (o : Vector Byte 16) {k : Fin 32} (hk : k.val % 2 = 1) : denseNibble o k = o[k.val / 2] >>> 4 := by
  simpa [denseNibble, hk] using shiftRight_four_and_low_mask o[k.val / 2]

theorem denseNibble_and_low_mask (o : Vector Byte 16) (k : Fin 32) : denseNibble o k &&& 0x0F = denseNibble o k := by
  rw [denseNibble, BitVec.and_assoc, BitVec.and_self]

/-- Dense bytes are their nibbles. -/
theorem eq_of_denseNibble {o o' : Vector Byte 16} (h : ∀ k, denseNibble o k = denseNibble o' k) : o = o' := by
  ext1 i hi
  have hlow := h ⟨2 * i, by omega⟩
  have hhigh := h ⟨2 * i + 1, by omega⟩
  rw [denseNibble_even _ (by simp), denseNibble_even _ (by simp)] at hlow
  rw [denseNibble_odd _ (by simp), denseNibble_odd _ (by simp)] at hhigh
  simp only [Nat.mul_div_cancel_left i Nat.two_pos, show (2 * i + 1) / 2 = i by omega] at hlow hhigh
  rw [← low_or_high_nibble o[i], hlow, hhigh, low_or_high_nibble]

/-! ## The passes of NUNPACK -/

theorem nibbleAt_even (x : Byte) (i : Nat) : nibbleAt x (2 * i) = x := by
  simp [nibbleAt]

theorem nibbleAt_odd (x : Byte) (i : Nat) : nibbleAt x (2 * i + 1) = x <<< 4 := by
  simp [nibbleAt, Nat.add_mod]

theorem orLowNibble_getElem (s o : Vector Byte 16) (j : Fin 16) (i : Nat) (hi : i < 16) :
    (orLowNibble s o j)[i] = if j.val / 2 = i then o[i] ||| nibbleAt (s[j.val] &&& 0x0F) j.val else o[i] := by
  rw [orLowNibble, Vector.getElem_set]
  split_ifs with h
  · subst h
    rfl
  · rfl

theorem orHighNibble_getElem (s o : Vector Byte 16) (j : Fin 16) (i : Nat) (hi : i < 16) :
    (orHighNibble s o j)[i] = if 8 + j.val / 2 = i then o[i] ||| nibbleAt (s[j.val] >>> 4) j.val else o[i] := by
  rw [orHighNibble, Vector.getElem_set]
  split_ifs with h
  · subst h
    rfl
  · rfl

/-- A pass of ORs leaves in byte `i` what the sources with target `i` contribute, in order. -/
theorem foldl_getElem_of_targets {pass : Vector Byte 16 → Fin 16 → Vector Byte 16} {target : Fin 16 → Nat}
    {part : Fin 16 → Byte} {i : Nat} (hi : i < 16)
    (hpass : ∀ o j, (pass o j)[i] = if target j = i then o[i] ||| part j else o[i])
    (js : List (Fin 16)) (o : Vector Byte 16) :
    (js.foldl pass o)[i] = (js.filter (target · = i)).foldl (fun b j => b ||| part j) o[i] := by
  induction js generalizing o with
  | nil => rfl
  | cons j js ih =>
    rw [List.foldl_cons, ih, hpass]
    by_cases hj : target j = i <;> simp [hj]

/-- The two sources of an output byte within its half. -/
theorem filter_half_eq (i : Fin 8) :
    (List.finRange 16).filter (fun j => j.val / 2 = i.val) = [⟨2 * i.val, by omega⟩, ⟨2 * i.val + 1, by omega⟩] := by
  decide +revert

theorem nunpack_getElem_low (s : Vector Byte 16) (i : Fin 8) :
    (nunpack s)[i.val] = (s[2 * i.val] &&& (0x0F : Byte)) ||| ((s[2 * i.val + 1] &&& (0x0F : Byte)) <<< 4) := by
  have hnone : (List.finRange 16).filter (fun j => 8 + j.val / 2 = i.val) = [] :=
    List.filter_eq_nil_iff.2 fun j _ => by simp only [decide_eq_true_eq]; omega
  rw [nunpack, foldl_getElem_of_targets _ (orHighNibble_getElem s · · i.val (by omega)), hnone, List.foldl_nil,
    foldl_getElem_of_targets _ (orLowNibble_getElem s · · i.val (by omega)), filter_half_eq]
  simp [nibbleAt_even, nibbleAt_odd]

theorem nunpack_getElem_high (s : Vector Byte 16) (i : Fin 8) :
    (nunpack s)[8 + i.val] = (s[2 * i.val] >>> 4) ||| ((s[2 * i.val + 1] >>> 4) <<< 4) := by
  have hnone : (List.finRange 16).filter (fun j => j.val / 2 = 8 + i.val) = [] :=
    List.filter_eq_nil_iff.2 fun j _ => by simp only [decide_eq_true_eq]; omega
  rw [nunpack, foldl_getElem_of_targets _ (orHighNibble_getElem s · · (8 + i.val) (by omega)),
    foldl_getElem_of_targets _ (orLowNibble_getElem s · · (8 + i.val) (by omega)), hnone]
  simp only [Nat.add_left_cancel_iff, filter_half_eq]
  simp [nibbleAt_even, nibbleAt_odd]

/-- R102, in codes: output byte `i` is code `2i` with code `2i + 1` above it. -/
theorem nunpack_getElem (s : Vector Byte 16) (i : Fin 16) :
    (nunpack s)[i.val] = wireCode s ⟨2 * i.val, by omega⟩ ||| (wireCode s ⟨2 * i.val + 1, by omega⟩ <<< 4) := by
  induction i using Fin.addCases (m := 8) (n := 8) with
  | left i =>
    simp only [Fin.val_castAdd]
    rw [nunpack_getElem_low, wireCode_low s (j := 2 * i.val) (by omega),
      wireCode_low s (j := 2 * i.val + 1) (by omega)]
  | right i =>
    have heven : 2 * (8 + i.val) = 16 + 2 * i.val := by omega
    simp only [Fin.val_natAdd, heven, Nat.add_assoc]
    rw [nunpack_getElem_high, wireCode_high s (j := 2 * i.val) (by omega),
      wireCode_high s (j := 2 * i.val + 1) (by omega)]

/-- R103: nibble `k` of the unpacked bytes is code `k`. -/
theorem denseNibble_nunpack (s : Vector Byte 16) (k : Fin 32) : denseNibble (nunpack s) k = wireCode s k := by
  have hbyte := nunpack_getElem s ⟨k.val / 2, by omega⟩
  obtain hk | hk := Nat.mod_two_eq_zero_or_one k.val
  · have hcode : 2 * (k.val / 2) = k.val := by omega
    rw [denseNibble_even _ hk, hbyte, or_shiftLeft_and_low_mask, wireCode_and_low_mask]
    simp only [hcode]
  · have hcode : 2 * (k.val / 2) + 1 = k.val := by omega
    rw [denseNibble_odd _ hk, hbyte, or_shiftLeft_shiftRight (wireCode_and_low_mask s _), wireCode_and_low_mask]
    simp only [hcode]

/-! ## NPACK -/

theorem npack_getElem (o : Vector Byte 16) (j : Fin 16) :
    (npack o)[j.val] = denseNibble o ⟨j.val, by omega⟩ ||| (denseNibble o ⟨16 + j.val, by omega⟩ <<< 4) := by
  simp [npack]

/-- R106: code `k` of the packed bytes is nibble `k`. -/
theorem wireCode_npack (o : Vector Byte 16) (k : Fin 32) : wireCode (npack o) k = denseNibble o k := by
  induction k using Fin.addCases (m := 16) (n := 16) with
  | left j =>
    refine (wireCode_low (npack o) j.isLt).trans ?_
    rw [npack_getElem, or_shiftLeft_and_low_mask]
    exact denseNibble_and_low_mask o _
  | right j =>
    refine (wireCode_high (npack o) j.isLt).trans ?_
    rw [npack_getElem, or_shiftLeft_shiftRight (denseNibble_and_low_mask o _)]
    exact denseNibble_and_low_mask o _

theorem npack_nunpack (s : Vector Byte 16) : npack (nunpack s) = s := by
  ext1 j hj
  calc (npack (nunpack s))[j]
      = wireCode s ⟨j, by omega⟩ ||| (wireCode s ⟨16 + j, by omega⟩ <<< 4) := by
        rw [npack_getElem _ ⟨j, hj⟩, denseNibble_nunpack, denseNibble_nunpack]
    _ = s[j] := by rw [wireCode_low s hj, wireCode_high s hj, low_or_high_nibble]

theorem nunpack_npack (o : Vector Byte 16) : nunpack (npack o) = o :=
  eq_of_denseNibble fun k => (denseNibble_nunpack _ k).trans (wireCode_npack o k)

/-! ## The permutation of the nibbles -/

/-- R103: the nibble of byte `j` and half `h`, position `2j + h`, moves to position `16h + j`. -/
def nibblePerm : Equiv.Perm (Fin 32) :=
  (finProdFinEquiv (m := 16) (n := 2)).symm.trans
    ((Equiv.prodComm (Fin 16) (Fin 2)).trans (finProdFinEquiv (m := 2) (n := 16)))

theorem nibblePerm_val (k : Fin 32) : (nibblePerm k).val = 16 * (k.val % 2) + k.val / 2 :=
  Nat.add_comm _ _

theorem wireCode_nibblePerm (s : Vector Byte 16) (k : Fin 32) : wireCode s (nibblePerm k) = denseNibble s k := by
  have hk : nibblePerm k = ⟨16 * (k.val % 2) + k.val / 2, by omega⟩ := Fin.ext (nibblePerm_val k)
  rw [hk]
  exact wireCode_half s ⟨k.val / 2, by omega⟩ ⟨k.val % 2, by omega⟩

/-! ## The obligations -/

/-- Settles O5: from the bytes that the two passes leave. -/
theorem nunpackClosedForm : Obligations.NunpackClosedForm := by
  intro s i
  refine ⟨nunpack_getElem_low s i, ?_, and_low_mask_shiftLeft_and_self _ _, shiftRight_and_high_mask _ _⟩
  rw [nunpack_getElem_high, shiftRight_shiftLeft_four]

/-- Settles O6: either reading of R103 is about the nibbles of the unpacked bytes, and nibble `k` is code `k`. -/
theorem nunpackPlacesEveryCode : Obligations.NunpackPlacesEveryCode := by
  intro s
  refine ⟨fun k => ⟨fun hk => ?_, fun hk => ?_⟩, fun j h => ?_⟩
  · rw [← denseNibble_even _ hk, denseNibble_nunpack]
  · rw [← denseNibble_odd _ hk, denseNibble_nunpack]
  · have hbyte : (16 * h.val + j.val) / 2 = 8 * h.val + j.val / 2 := by omega
    have hhalf : (16 * h.val + j.val) % 2 = j.val % 2 := by omega
    rw [← wireCode_half, ← denseNibble_nunpack]
    simp only [denseNibble, hbyte, hhalf]

/-- Settles O7: wire bytes and dense bytes are each fixed by their 32 codes, and `nibblePerm` is where NUNPACK moves each nibble. -/
theorem npackAndNunpackAreInverse : Obligations.NpackAndNunpackAreInverse :=
  ⟨npack_nunpack, nunpack_npack,
    Function.bijective_iff_has_inverse.2 ⟨npack, npack_nunpack, nunpack_npack⟩,
    ⟨nibblePerm, fun s k => (denseNibble_nunpack s _).trans (wireCode_nibblePerm s k)⟩, by decide, by decide⟩

end Sys2Proof.Machine
end

section
/-! PROOFS. The repack engine (R120 to R132). A half-float is its three fields, so its value is a sign and a magnitude;
BIASGEN complements the sign and, where the product is finite, multiplies the magnitude by 2^k and loses no bit. -/

namespace Sys2Proof.Machine

/-! ## The fields of a half-float (R123) -/

theorem toNat_halfSign (h : Half) : (halfSign h).toNat = h.toNat / 32768 := by
  have hh := h.isLt
  rw [halfSign, BitVec.extractLsb'_toNat, Nat.shiftRight_eq_div_pow]
  omega

theorem toNat_halfExp (h : Half) : (halfExp h).toNat = h.toNat / 1024 % 32 := by
  simp [halfExp, Nat.shiftRight_eq_div_pow]

theorem toNat_halfFrac (h : Half) : (halfFrac h).toNat = h.toNat % 1024 := by
  simp [halfFrac]

theorem toNat_halfOf (s : BitVec 1) (e : BitVec 5) (f : BitVec 10) :
    (halfOf s e f).toNat = 32768 * s.toNat + 1024 * e.toNat + f.toNat := by
  refine (BitVec.toNat_append (s ++ e) f).trans ?_
  rw [BitVec.toNat_append, ← Nat.shiftLeft_add_eq_or_of_lt e.isLt, ← Nat.shiftLeft_add_eq_or_of_lt f.isLt]
  simp only [Nat.shiftLeft_eq]
  omega

@[simp] theorem halfSign_halfOf (s : BitVec 1) (e : BitVec 5) (f : BitVec 10) : halfSign (halfOf s e f) = s := by
  apply BitVec.eq_of_toNat_eq
  have he := e.isLt
  have hf := f.isLt
  rw [toNat_halfSign, toNat_halfOf]
  omega

@[simp] theorem halfExp_halfOf (s : BitVec 1) (e : BitVec 5) (f : BitVec 10) : halfExp (halfOf s e f) = e := by
  apply BitVec.eq_of_toNat_eq
  have he := e.isLt
  have hf := f.isLt
  rw [toNat_halfExp, toNat_halfOf]
  omega

@[simp] theorem halfFrac_halfOf (s : BitVec 1) (e : BitVec 5) (f : BitVec 10) : halfFrac (halfOf s e f) = f := by
  apply BitVec.eq_of_toNat_eq
  have hf := f.isLt
  rw [toNat_halfFrac, toNat_halfOf]
  omega

theorem isNaN_iff (h : Half) : isNaN h = true ↔ halfExp h = 31 ∧ halfFrac h ≠ 0 := by
  simp [isNaN]

/-! ## Sign and magnitude (R123) -/

/-- The magnitude of a finite half-float in units of 2^-24. -/
def halfMagnitude (h : Half) : Nat :=
  if halfExp h = 0 then (halfFrac h).toNat else (1024 + (halfFrac h).toNat) * 2 ^ ((halfExp h).toNat - 1)

theorem halfUnits_eq (h : Half) :
    halfUnits h = if halfSign h = 1 then -(halfMagnitude h : Int) else halfMagnitude h := rfl

theorem natAbs_halfUnits (h : Half) : (halfUnits h).natAbs = halfMagnitude h := by
  rw [halfUnits_eq]
  split <;> simp

theorem halfMagnitude_of_subnormal {h : Half} (he : halfExp h = 0) : halfMagnitude h = (halfFrac h).toNat :=
  if_pos he

theorem halfMagnitude_of_normal {h : Half} (he : halfExp h ≠ 0) :
    halfMagnitude h = (1024 + (halfFrac h).toNat) * 2 ^ ((halfExp h).toNat - 1) :=
  if_neg he

theorem toNat_halfExp_pos {h : Half} (he : halfExp h ≠ 0) : 0 < (halfExp h).toNat := by
  bv_omega

/-- R122: the value of a product by a negative constant, from its sign and its magnitude. -/
theorem halfUnits_eq_neg_mul {h g : Half} {n : Nat} (hsign : halfSign g = halfSign h ^^^ 1)
    (hmag : halfMagnitude g = n * halfMagnitude h) : halfUnits g = -(n : Int) * halfUnits h := by
  rw [halfUnits_eq, halfUnits_eq, hsign, hmag]
  rcases BitVec.eq_zero_or_eq_one (halfSign h) with h0 | h1
  · simp [h0]
  · simp [h1]

/-- The normal numbers of exponent `n` and above are those of magnitude 2^(n + 9) and above. -/
theorem two_pow_le_halfMagnitude_iff (h : Half) {n : Nat} (hn : 0 < n) :
    2 ^ (n + 9) ≤ halfMagnitude h ↔ n ≤ (halfExp h).toNat := by
  have hfrac := (halfFrac h).isLt
  by_cases he : halfExp h = 0
  · have hpow : 2 ^ 10 ≤ 2 ^ (n + 9) := Nat.pow_le_pow_right (by decide) (by omega)
    have hz : (halfExp h).toNat = 0 := by rw [he]; rfl
    rw [halfMagnitude_of_subnormal he, hz]
    omega
  · have hpos := toNat_halfExp_pos he
    rw [halfMagnitude_of_normal he]
    constructor
    · intro hle
      have hlt : (1024 + (halfFrac h).toNat) * 2 ^ ((halfExp h).toNat - 1) < 2 ^ ((halfExp h).toNat + 10) := by
        calc (1024 + (halfFrac h).toNat) * 2 ^ ((halfExp h).toNat - 1)
            < 2 ^ 11 * 2 ^ ((halfExp h).toNat - 1) := Nat.mul_lt_mul_of_pos_right (by omega) (by positivity)
          _ = 2 ^ ((halfExp h).toNat + 10) := by rw [← pow_add]; congr 1; omega
      have := (Nat.pow_lt_pow_iff_right (by decide)).1 (hle.trans_lt hlt)
      omega
    · intro hle
      calc 2 ^ (n + 9) ≤ 2 ^ (10 + ((halfExp h).toNat - 1)) := Nat.pow_le_pow_right (by decide) (by omega)
        _ = 1024 * 2 ^ ((halfExp h).toNat - 1) := by rw [pow_add]; rfl
        _ ≤ (1024 + (halfFrac h).toNat) * 2 ^ ((halfExp h).toNat - 1) := Nat.mul_le_mul_right _ (by omega)

/-! ## BIASGEN, one equation per case (R124) -/

theorem biasgen_of_isNaN {h : Half} (hn : isNaN h = true) (k : Nat) : biasgen h k = nanBias h k := by
  obtain ⟨he, hf⟩ := (isNaN_iff h).1 hn
  exact (if_pos he).trans (if_neg hf)

theorem biasgen_of_infinity {h : Half} (he : halfExp h = 31) (hf : halfFrac h = 0) (k : Nat) :
    biasgen h k = halfOverflow (halfSign h ^^^ 1) :=
  (if_pos he).trans (if_pos hf)

theorem biasgen_of_zero {h : Half} (he : halfExp h = 0) (hf : halfFrac h = 0) (k : Nat) :
    biasgen h k = halfOf (halfSign h ^^^ 1) 0 0 :=
  (if_neg (by simp [he])).trans ((if_pos he).trans (if_pos hf))

/-- Zeros included: their product is the subnormal 0. -/
theorem biasgen_of_subnormal {h : Half} (he : halfExp h = 0) (k : Nat) :
    biasgen h k = biasSubnormal (halfSign h ^^^ 1) ((halfFrac h).toNat <<< k) := by
  by_cases hf : halfFrac h = 0
  · rw [biasgen_of_zero he hf, hf]
    simp [biasSubnormal]
  · exact (if_neg (by simp [he])).trans ((if_pos he).trans (if_neg hf))

theorem biasgen_of_overflow {h : Half} {k : Nat} (h0 : halfExp h ≠ 0) (h31 : halfExp h ≠ 31)
    (hk : 31 ≤ (halfExp h).toNat + k) : biasgen h k = halfOverflow (halfSign h ^^^ 1) :=
  (if_neg h31).trans ((if_neg h0).trans (if_pos hk))

theorem biasgen_of_normal {h : Half} {k : Nat} (h0 : halfExp h ≠ 0) (hk : (halfExp h).toNat + k < 31) :
    biasgen h k = halfOf (halfSign h ^^^ 1) (BitVec.ofNat 5 ((halfExp h).toNat + k)) (halfFrac h) := by
  have h31 : halfExp h ≠ 31 := by bv_omega
  exact (if_neg h31).trans ((if_neg h0).trans (if_neg (by omega)))

theorem isNaN_nanBias (h : Half) (k : Nat) : isNaN (nanBias h k) = true := by
  have hdraw := (Config.nanDraw h k).2.isLt
  rw [isNaN_iff, nanBias, halfExp_halfOf, halfFrac_halfOf]
  refine ⟨rfl, ?_⟩
  bv_omega

/-! ## A subnormal scale (R124, R125) -/

theorem halfSign_biasSubnormal (ns : BitVec 1) (m : Nat) : halfSign (biasSubnormal ns m) = ns := by
  unfold biasSubnormal
  split <;> exact halfSign_halfOf _ _ _

theorem biasSubnormal_of_lt (ns : BitVec 1) {m : Nat} (hm : m < 1024) :
    biasSubnormal ns m = halfOf ns 0 (BitVec.ofNat 10 m) :=
  if_pos hm

theorem biasSubnormal_of_ge (ns : BitVec 1) {m : Nat} (hm : 1024 ≤ m) :
    biasSubnormal ns m = halfOf ns (BitVec.ofNat 5 (Nat.log2 m - 9)) (BitVec.ofNat 10 (m >>> (Nat.log2 m - 10))) :=
  if_neg (by omega)

/-- The highest set bit of `f * 2^k` is bit 9 + k or a lower one. -/
theorem log2_mul_two_pow_le {f : Nat} (hf : f < 1024) (k : Nat) : Nat.log2 (f * 2 ^ k) ≤ 9 + k := by
  by_cases hz : f * 2 ^ k = 0
  · simp [hz]
  · have hlt : f * 2 ^ k < 2 ^ (10 + k) := by
      rw [pow_add]
      exact Nat.mul_lt_mul_of_pos_right hf (by positivity)
    have := (Nat.log2_lt hz).2 hlt
    omega

/-- The shift that brings the highest set bit to bit 10 drops only zeros. -/
theorem shiftRight_mul_two_pow_of_log2 {f k : Nat} (hf : f < 1024) :
    (f * 2 ^ k) >>> (Nat.log2 (f * 2 ^ k) - 10) * 2 ^ (Nat.log2 (f * 2 ^ k) - 10) = f * 2 ^ k := by
  have hp := log2_mul_two_pow_le hf k
  rw [Nat.shiftRight_eq_div_pow]
  exact Nat.div_mul_cancel ((pow_dvd_pow 2 (by omega)).mul_left f)

/-- After that shift the number is an implicit 1 and ten bits of fraction. -/
theorem shiftRight_log2_bounds {m : Nat} (hm : 1024 ≤ m) :
    1024 ≤ m >>> (Nat.log2 m - 10) ∧ m >>> (Nat.log2 m - 10) < 2048 := by
  have hp : 10 ≤ Nat.log2 m := (Nat.le_log2 (by omega)).2 hm
  rw [Nat.shiftRight_eq_div_pow]
  constructor
  · rw [Nat.le_div_iff_mul_le (by positivity)]
    calc 1024 * 2 ^ (Nat.log2 m - 10) = 2 ^ Nat.log2 m := by
          rw [show 1024 = 2 ^ 10 by rfl, ← pow_add]; congr 1; omega
      _ ≤ m := Nat.log2_self_le (by omega)
  · rw [Nat.div_lt_iff_lt_mul (by positivity)]
    calc m < 2 ^ (Nat.log2 m + 1) := Nat.lt_log2_self
      _ = 2048 * 2 ^ (Nat.log2 m - 10) := by
          rw [show 2048 = 2 ^ 11 by rfl, ← pow_add]; congr 1; omega

/-- R125: the product of a subnormal scale is finite and loses no bit. -/
theorem biasSubnormal_exact (ns : BitVec 1) {f k : Nat} (hf : f < 1024) (hk : k < 31) :
    halfMagnitude (biasSubnormal ns (f * 2 ^ k)) = f * 2 ^ k ∧ halfExp (biasSubnormal ns (f * 2 ^ k)) ≠ 31 := by
  by_cases hm : f * 2 ^ k < 1024
  · rw [biasSubnormal_of_lt ns hm, halfMagnitude_of_subnormal (halfExp_halfOf _ _ _), halfExp_halfOf, halfFrac_halfOf,
      BitVec.toNat_ofNat]
    exact ⟨Nat.mod_eq_of_lt hm, by decide⟩
  · obtain ⟨hlo, hhi⟩ := shiftRight_log2_bounds (not_lt.1 hm)
    have hp : 10 ≤ Nat.log2 (f * 2 ^ k) := (Nat.le_log2 (by omega)).2 (not_lt.1 hm)
    have hpk := log2_mul_two_pow_le hf k
    have hexact := shiftRight_mul_two_pow_of_log2 (k := k) hf
    rw [biasSubnormal_of_ge ns (not_lt.1 hm)]
    generalize Nat.log2 (f * 2 ^ k) = p at *
    generalize (f * 2 ^ k) >>> (p - 10) = q at *
    have hexp : (BitVec.ofNat 5 (p - 9)).toNat = p - 9 := Nat.mod_eq_of_lt (by omega)
    have hfrac : 1024 + (BitVec.ofNat 10 q).toNat = q := by rw [BitVec.toNat_ofNat]; omega
    rw [halfMagnitude_of_normal (by rw [halfExp_halfOf]; bv_omega), halfExp_halfOf, halfFrac_halfOf, hexp, hfrac]
    exact ⟨hexact, by bv_omega⟩

/-! ## BIASGEN of a scale that does not overflow (R125), and of one that does (R126) -/

/-- R132: the sign of every bias but a NaN's. -/
theorem halfSign_biasgen {h : Half} (hn : isNaN h = false) (k : Nat) : halfSign (biasgen h k) = halfSign h ^^^ 1 := by
  by_cases h31 : halfExp h = 31
  · have hf : halfFrac h = 0 := by simpa [isNaN, h31] using hn
    rw [biasgen_of_infinity h31 hf, halfOverflow, halfSign_halfOf]
  · by_cases h0 : halfExp h = 0
    · rw [biasgen_of_subnormal h0, halfSign_biasSubnormal]
    · by_cases hk : (halfExp h).toNat + k < 31
      · rw [biasgen_of_normal h0 hk, halfSign_halfOf]
      · rw [biasgen_of_overflow h0 h31 (not_lt.1 hk), halfOverflow, halfSign_halfOf]

/-- R125: the magnitude of the exact product, and that it is finite. -/
theorem biasgen_exact {h : Half} {k : Nat} (hk : (halfExp h).toNat + k < 31) :
    halfMagnitude (biasgen h k) = 2 ^ k * halfMagnitude h ∧ halfExp (biasgen h k) ≠ 31 := by
  by_cases h0 : halfExp h = 0
  · rw [biasgen_of_subnormal h0, halfMagnitude_of_subnormal h0, Nat.shiftLeft_eq, mul_comm (2 ^ k)]
    exact biasSubnormal_exact _ (halfFrac h).isLt (by omega)
  · have hpos := toNat_halfExp_pos h0
    have hexp : (BitVec.ofNat 5 ((halfExp h).toNat + k)).toNat = (halfExp h).toNat + k :=
      Nat.mod_eq_of_lt (by omega)
    rw [biasgen_of_normal h0 hk, halfMagnitude_of_normal (by rw [halfExp_halfOf]; bv_omega), halfMagnitude_of_normal h0,
      halfExp_halfOf, halfFrac_halfOf, hexp]
    refine ⟨?_, by bv_omega⟩
    rw [mul_left_comm, ← pow_add]
    congr 2
    omega

theorem isNaN_of_halfExp_ne {h : Half} (he : halfExp h ≠ 31) : isNaN h = false :=
  Bool.eq_false_iff.2 fun hn => he ((isNaN_iff h).1 hn).1

/-- R122, R125: the value of the exact product. -/
theorem halfUnits_biasgen {h : Half} {k : Nat} (hk : (halfExp h).toNat + k < 31) :
    halfUnits (biasgen h k) = -(2 ^ k) * halfUnits h := by
  have hn : isNaN h = false := isNaN_of_halfExp_ne (by bv_omega)
  simpa using halfUnits_eq_neg_mul (halfSign_biasgen hn k) (biasgen_exact hk).1

/-- R131: the bias moves the code 2^k to zero. -/
theorem dequantUnits_biasgen (c : Nat) {h : Half} {k : Nat} (hk : (halfExp h).toNat + k < 31) :
    dequantUnits c h (biasgen h k) = ((c : Int) - 2 ^ k) * halfUnits h := by
  rw [dequantUnits, halfUnits_biasgen hk]
  ring

/-- A zero or subnormal scale is below every overflow threshold. -/
theorem halfExp_add_lt_of_finite {h : Half} {k : Nat} (hk : k < 31) (hfin : halfExp h = 0 ∨ (halfExp h).toNat + k < 31) :
    (halfExp h).toNat + k < 31 := by
  rcases hfin with h0 | hlt
  · simpa [h0] using hk
  · exact hlt

/-- R126: overflow is decided by the exponent. -/
theorem biasgen_eq_infinity_iff {h : Half} {k : Nat} (hfin : (halfExp h).toNat < 31) (hk : k < 31) :
    biasgen h k = halfOf (halfSign h ^^^ 1) 31 0 ↔ 31 ≤ (halfExp h).toNat + k := by
  constructor
  · intro heq
    by_contra hlt
    exact (biasgen_exact (not_le.1 hlt)).2 (by rw [heq, halfExp_halfOf])
  · intro hle
    exact biasgen_of_overflow (by bv_omega) (by bv_omega) hle

/-- R126: overflow is decided by the magnitude; the threshold is 8192 for k = 3 and 512 for k = 7. -/
theorem biasgen_eq_infinity_iff_two_pow_le {h : Half} {k : Nat} (hfin : (halfExp h).toNat < 31) (hk : k < 31) :
    biasgen h k = halfOf (halfSign h ^^^ 1) 31 0 ↔ 2 ^ (31 - k + 9) ≤ (halfUnits h).natAbs := by
  rw [biasgen_eq_infinity_iff hfin hk, natAbs_halfUnits, two_pow_le_halfMagnitude_iff h (by omega)]
  omega

/-- R126: a magnitude threshold 2^(n + 9) as a range of bit patterns of either sign. -/
theorem two_pow_le_natAbs_halfUnits_iff {h : Half} (hfin : (halfExp h).toNat < 31) {n : Nat} (hn : 0 < n) :
    2 ^ (n + 9) ≤ (halfUnits h).natAbs ↔
      (1024 * n ≤ h.toNat ∧ h.toNat ≤ 0x7BFF) ∨ (0x8000 + 1024 * n ≤ h.toNat ∧ h.toNat ≤ 0xFBFF) := by
  have hh := h.isLt
  rw [natAbs_halfUnits, two_pow_le_halfMagnitude_iff h hn]
  rw [toNat_halfExp] at hfin ⊢
  omega

/-! ## FLIP8 (R128, R129) -/

/-- R128: inverting bit 7 moves the other half of the range onto this one. -/
theorem toNat_flip8 (b : Byte) : (flip8 b).toNat = (b.toNat + 128) % 256 := by
  have hb := b.isLt
  have hlow : (b.toNat ^^^ 128) % 2 ^ 7 = b.toNat % 2 ^ 7 := Nat.xor_mod_two_pow.trans (Nat.xor_zero _)
  have hhigh : (b.toNat ^^^ 128) / 2 ^ 7 = (b.toNat / 2 ^ 7) ^^^ 1 := Nat.xor_div_two_pow
  have htop : b.toNat / 2 ^ 7 = 0 ∨ b.toNat / 2 ^ 7 = 1 := by omega
  change b.toNat ^^^ 128 = _
  rcases htop with h0 | h1
  · simp only [h0, Nat.zero_xor] at hhigh
    omega
  · simp only [h1, Nat.xor_self] at hhigh
    omega

theorem flip8_involutive : Function.Involutive flip8 := by
  intro b
  rw [flip8, flip8, BitVec.xor_assoc, BitVec.xor_self, BitVec.xor_zero]

/-! ## Little-endian readings (R120, R130) -/

/-- A value shifted above `n` bits and joined to them by OR is their concatenation. -/
theorem zeroExtend_or_shiftLeft {m n : Nat} (N : Nat) (x : BitVec m) (y : BitVec n) :
    y.zeroExtend N ||| (x.zeroExtend N <<< n) = (x ++ y).zeroExtend N := by
  ext i hi
  by_cases hin : i < n
  · simp [BitVec.getLsbD_append, hin]
  · simp [BitVec.getLsbD_append, hin, BitVec.getLsbD_of_ge y i (by omega)]

theorem fld16_eq_append (blk : Vector Byte 34) (p : Fin 33) : fld16 blk p = blk[p.val + 1] ++ blk[p.val] :=
  (zeroExtend_or_shiftLeft 16 _ _).trans (BitVec.setWidth_eq _)

theorem zeroExtend_or_shiftLeft_bytes (a b c d : Byte) :
    a.zeroExtend 32 ||| (b.zeroExtend 32 <<< 8) ||| (c.zeroExtend 32 <<< 16) ||| (d.zeroExtend 32 <<< 24) =
      d ++ c ++ b ++ a := by
  calc a.zeroExtend 32 ||| (b.zeroExtend 32 <<< 8) ||| (c.zeroExtend 32 <<< 16) ||| (d.zeroExtend 32 <<< 24)
      = (d ++ (c ++ (b ++ a))).zeroExtend 32 := by
        rw [zeroExtend_or_shiftLeft, zeroExtend_or_shiftLeft, zeroExtend_or_shiftLeft]
    _ = d ++ (c ++ (b ++ a)) := BitVec.setWidth_eq _
    _ = d ++ c ++ (b ++ a) := BitVec.append_assoc'
    _ = d ++ c ++ b ++ a := BitVec.append_assoc'

/-! ## The obligations -/

/-- Settles O8: the complemented sign and the exact magnitude. -/
theorem biasgenIsExact : Obligations.BiasgenIsExact := by
  intro h k hk _ hfin
  have hlt := halfExp_add_lt_of_finite (by omega) hfin
  exact ⟨halfUnits_biasgen hlt, (biasgen_exact hlt).2⟩

/-- Settles O9: overflow, the magnitude thresholds and the bit patterns are each a bound on the exponent. -/
theorem biasgenOverflowsExactly : Obligations.BiasgenOverflowsExactly := by
  refine ⟨fun h k hk _ hfin hle => ?_, fun h hfin => ?_, by decide, by decide⟩
  · have hinf := (biasgen_eq_infinity_iff hfin (by omega)).2 hle
    have hmag := (biasgen_eq_infinity_iff_two_pow_le hfin (by omega)).1 hinf
    refine ⟨hinf, ?_⟩
    rcases hk with rfl | rfl <;> omega
  · exact ⟨biasgen_eq_infinity_iff_two_pow_le hfin (by decide), two_pow_le_natAbs_halfUnits_iff hfin (n := 28) (by decide),
      biasgen_eq_infinity_iff_two_pow_le hfin (by decide), two_pow_le_natAbs_halfUnits_iff hfin (n := 24) (by decide)⟩

/-- Settles O10: the drawn NaN is a NaN, and the sign lemma covers every other scale. -/
theorem biasgenOfSpecialScales : Obligations.BiasgenOfSpecialScales := by
  intro h k _
  refine ⟨fun hn => ?_, fun hn => ?_, ?_, ?_, ?_, ?_⟩
  · rw [biasgen_of_isNaN hn]
    exact isNaN_nanBias h k
  · rw [halfSign_biasgen hn]
    exact BitVec.xor_allOnes
  · rintro rfl
    rw [biasgen_of_infinity (by decide) (by decide)]
    decide
  · rintro rfl
    rw [biasgen_of_infinity (by decide) (by decide)]
    decide
  · rintro rfl
    rw [biasgen_of_zero (by decide) (by decide)]
    decide
  · rintro rfl
    rw [biasgen_of_zero (by decide) (by decide)]
    decide

/-- Settles O11: from the exact value of the bias. -/
theorem derivedBiasRecentresCodes : Obligations.DerivedBiasRecentresCodes := by
  intro h c _
  exact ⟨fun hfin => dequantUnits_biasgen c (halfExp_add_lt_of_finite (by decide) hfin),
    fun hfin => dequantUnits_biasgen c (halfExp_add_lt_of_finite (by decide) hfin)⟩

/-- Settles O12: each part from the flipped byte as a number, or from the involution. -/
theorem flipAddsHalfTheRange : Obligations.FlipAddsHalfTheRange := by
  refine ⟨fun b => ⟨?_, flip8_involutive b, fun heq => ?_⟩, flip8_involutive.bijective⟩
  · have hflip := toNat_flip8 b
    have hb := b.isLt
    rw [BitVec.toInt_eq_toNat_cond]
    split <;> omega
  · have hflip := toNat_flip8 b
    rw [heq] at hflip
    omega

/-- Settles O13: both are shifted bytes joined by OR. -/
theorem fieldsAndWordsAreLittleEndian : Obligations.FieldsAndWordsAreLittleEndian :=
  ⟨fld16_eq_append, fun _ _ => zeroExtend_or_shiftLeft_bytes _ _ _ _⟩

end Sys2Proof.Machine
end

section
/-! PROOFS. One DEC operation and one block (R140, R183 to R190). `runJobStep` meets the step-by-step description of any
operation whose HEADER and CODES steps are given; four such steps from FETCH pass one block. What a low-bit operation leaves
of the block follows from those four steps alone. -/

namespace Sys2Proof.Machine

/-! ## CHECK -/

theorem shapeOk_iff (lastdim : Word) : shapeOk lastdim = true ↔ lastdim.toNat % 32 = 0 := by
  simp [shapeOk, Config.blockCodes]

section Check
variable {l : Latch} {lastdim outer : Word} {s : State}

/-- R183, R250: a LASTDIM that is no multiple of 32 ends the job. -/
theorem stepCheck_of_badShape (h : lastdim.toNat % 32 ≠ 0) :
    stepCheck l lastdim outer s = .next (s.rejectJob .incompatibleShape) :=
  if_neg fun hok => h ((shapeOk_iff lastdim).1 hok)

/-- R192: a job of no blocks is done. -/
theorem stepCheck_of_noBlocks (h : lastdim.toNat % 32 = 0) (hn : blockCount lastdim outer = 0) :
    stepCheck l lastdim outer s = .next { s.setUpJob l 0 with done := true, fsm := .idle } := by
  simp [stepCheck, (shapeOk_iff lastdim).2 h, hn]

/-- R183: a job whose launch premises hold goes to FETCH. -/
theorem stepCheck_of_launch (h : lastdim.toNat % 32 = 0) (hn : blockCount lastdim outer ≠ 0)
    (hp : launchProblem s l (blockCount lastdim outer) = none) :
    stepCheck l lastdim outer s = .next { s.setUpJob l (blockCount lastdim outer) with fsm := .fetch } := by
  simp [stepCheck, (shapeOk_iff lastdim).2 h, hn, hp]

/-- R283: a job with a launch premise that fails is refused. -/
theorem stepCheck_of_problem (h : lastdim.toNat % 32 = 0) (hn : blockCount lastdim outer ≠ 0) {r : Refusal}
    (hp : launchProblem s l (blockCount lastdim outer) = some r) : stepCheck l lastdim outer s = .refused r := by
  simp [stepCheck, (shapeOk_iff lastdim).2 h, hn, hp]

end Check

/-- Storage that is missing is the first launch premise that fails. -/
theorem launchProblem_of_missingSpace {s : State} {l : Latch} {n : Nat} {sp : SpaceId}
    (h : missingSpace s l n = some sp) : launchProblem s l n = some (.unbound sp) := by
  simp [launchProblem, h]

theorem launchProblem_of_flagsNotChosen {s : State} {l : Latch} {n : Nat} (h : missingSpace s l n = none)
    (hk : l.kind = .q4_1) (hflags : s.flagsChosen = false) : launchProblem s l n = some .flagsNotChosen := by
  simp [launchProblem, h, hk, hflags]

/-- CHECK of any operation, with its own latch row. -/
theorem runJobStep_checkOutcomes (l : Latch) (header codes : State → State) :
    CheckOutcomes (runJobStep l header codes) l := by
  intro lastdim outer s hf
  have hrun : runJobStep l header codes lastdim outer s = stepCheck l lastdim outer s := by simp [runJobStep, hf]
  rw [hrun]
  refine ⟨fun h => ?_, fun h hn => ?_, fun h hn hm hflags => ?_, fun sp h hn hm => ?_, fun h hn hm hk hflags => ?_⟩
  · exact stepCheck_of_badShape h
  · exact stepCheck_of_noBlocks h hn
  · exact stepCheck_of_launch h hn ((launchProblem_eq_none s l _).2 ⟨hm, hflags⟩)
  · exact stepCheck_of_problem h hn (launchProblem_of_missingSpace hm)
  · exact stepCheck_of_problem h hn (launchProblem_of_flagsNotChosen hm hk hflags)

/-! ## The block steps -/

theorem fetchBlock_getElem (src : Space) (base bs : Nat) (old : Vector Byte 34) (i : Fin 34) :
    (fetchBlock src base bs old)[i.val] = if i.val < bs then src.peek (base + i.val) else old[i.val] :=
  Vector.getElem_ofFn ..

/-- FETCH answers a next state where the block is bound (R186). -/
theorem stepFetch_eq_next {s : State} (hbs : s.bs.toNat ≤ 34)
    (hsrc : s.srcSpace.holds 1 (s.blockBase + s.bs.toNat) = true) :
    stepFetch s = .next { s with blk := fetchBlock s.srcSpace s.blockBase s.bs.toNat s.blk, fsm := .header } := by
  simp [stepFetch, hsrc, Nat.not_lt.2 hbs]

/-- STORE with its end of a block, field by field (R189). -/
theorem State.storeBlock_endBlock_eq (s : State) : s.storeBlock.endBlock = { s with
    sSpace := s.sSpace.pokeHalf s.bidx.toNat s.scale, bSpace := s.bSpace.pokeHalf s.bidx.toNat s.bias
    wSpace := storeWords s.wSpace (s.bidx.toNat * s.wpbk.toNat) s.wpbk.toNat s.out
    bidx := s.bidx + 1
    done := if s.bidx + 1 = s.nblk then true else s.done
    fsm := if s.bidx + 1 = s.nblk then .idle else .fetch } := by
  have hstore : s.storeBlock = { s with
      sSpace := s.sSpace.pokeHalf s.bidx.toNat s.scale, bSpace := s.bSpace.pokeHalf s.bidx.toNat s.bias
      wSpace := storeWords s.wSpace (s.bidx.toNat * s.wpbk.toNat) s.wpbk.toNat s.out, bidx := s.bidx + 1 } := by
    simp [State.storeBlock, State.storePrefix, State.wordBase]
  rw [hstore, State.endBlock]
  by_cases hlast : s.bidx + 1 = s.nblk
  · simp only [if_pos hlast]
  · simp only [if_neg hlast]

theorem State.storeBlock_endBlock_onlyBlockWritten {s : State} (hc : SpacesCanonical s)
    (hW : s.wSpace.holds 4 (s.wordBase + s.wpbk.toNat) = true) :
    OnlyBlockWritten s s.storeBlock.endBlock s.latch s.bidx.toNat := by
  have hblock : OnlyBlockWritten s s.storeBlock s.latch s.bidx.toNat := State.storeBlock_onlyBlockWritten hc hW
  rcases s.storeBlock.endBlock_cases with ⟨-, e⟩ | ⟨-, e⟩ <;> rw [e] <;> exact hblock

/-- The block steps of any operation, from what its HEADER and CODES steps write. -/
theorem runJobStep_blockOutcomes {l : Latch} {header codes : State → State} {bias : State → Half}
    {out : State → Vector Byte 32} {lastdim outer : Word}
    (hheader : ∀ s, header s = { s with scale := s.blk[1] ++ s.blk[0], bias := bias s, fsm := .codes })
    (hcodes : ∀ s, codes s = { s with out := out s, fsm := .store }) :
    BlockOutcomes (runJobStep l header codes lastdim outer) bias out := by
  refine fun s => ⟨fun hf hbs hsrc => ?_, fun hf => ?_, fun hf => ?_, fun hf hw hS hB hW => ?_, fun hf => ?_⟩ <;>
    simp only [runJobStep, hf]
  · exact ⟨_, stepFetch_eq_next hbs hsrc, fetchBlock_getElem _ _ _ _⟩
  · rw [hheader]
  · rw [hcodes]
  · rw [stepStore_eq_next hw hS hB hW, State.storeBlock_endBlock_eq]

/-- R120, R187: SCALE and a derived bias are functions of the first two bytes of BLK. -/
theorem headerImplicit_eq (k : Nat) (s : State) : headerImplicit k s =
    { s with scale := s.blk[1] ++ s.blk[0], bias := biasgen (s.blk[1] ++ s.blk[0]) k, fsm := .codes } := by
  simp [headerImplicit, fld16_eq_append]

theorem codesLowBit_eq (s : State) : codesLowBit s = { s with out := unpackedOut s, fsm := .store } := rfl

/-- Settles O14: DEC.Q4_0 is `runJobStep` with its row of R184 and a bias derived with k = 3. -/
theorem decQ40Steps : Obligations.DecQ40Steps :=
  fun _ _ => ⟨runJobStep_checkOutcomes latchQ40 (headerImplicit 3) codesLowBit,
    fun _ _ => runJobStep_blockOutcomes (headerImplicit_eq 3) codesLowBit_eq⟩

/-! ## Four steps from FETCH -/

theorem execRun_four_of_next {i : Instr} {s u v w t : State} (hs : exec i s = .next u) (hu : exec i u = .next v)
    (hv : exec i v = .next w) (hw : exec i w = .next t) : execRun i 4 s = .next t := by
  simp only [execRun, hs, hu, hv, hw]

/-- R186: BLK holds the `n` bytes of SRC from `base` on. -/
def ReadFrom (src : Space) (base n : Nat) (blk : Vector Byte 34) : Prop :=
  ∀ j : Fin 34, j.val < n → blk[j.val] = src.peek (base + j.val)

/-- R186: the state that FETCH leaves, with the bytes it read. -/
def State.fetched (s : State) (blk : Vector Byte 34) : State := { s with blk := blk, fsm := .header }

/-- R187: the state that HEADER leaves, with the bias it found. -/
def State.headed (s : State) (bias : Half) : State :=
  { s with scale := s.blk[1] ++ s.blk[0], bias := bias, fsm := .codes }

@[simp] theorem State.fetched_blk (s : State) (blk : Vector Byte 34) : (s.fetched blk).blk = blk := rfl
@[simp] theorem State.fetched_coff (s : State) (blk : Vector Byte 34) : (s.fetched blk).coff = s.coff := rfl
@[simp] theorem State.headed_blk (s : State) (bias : Half) : (s.headed bias).blk = s.blk := rfl
@[simp] theorem State.headed_coff (s : State) (bias : Half) : (s.headed bias).coff = s.coff := rfl

/-- R186 to R189: the state after one block, from the values its steps leave in the block buffers. -/
def State.passBlock (s : State) (blk : Vector Byte 34) (scale bias : Half) (out : Vector Byte 32) : State :=
  State.endBlock (State.storeBlock { s.withBlockRegs blk scale bias out with fsm := .store })

/-- From FETCH an operation with these block steps passes the block that SRC holds. -/
theorem execRun_four_of_blockOutcomes {i : Instr} {bias : State → Half} {out : State → Vector Byte 32}
    (h : BlockOutcomes (exec i) bias out) {s : State} (hf : s.fsm = .fetch) (hbs : s.bs.toNat ≤ 34)
    (hw : s.wpbk.toNat ≤ 8) (hb : BlockBound s s.latch s.bidx.toNat) : ∃ blk : Vector Byte 34,
      ReadFrom s.srcSpace (s.bs.toNat * s.bidx.toNat) s.bs.toNat blk ∧
      execRun i 4 s = .next (s.passBlock blk (blk[1] ++ blk[0]) (bias (s.fetched blk))
        (out ((s.fetched blk).headed (bias (s.fetched blk))))) := by
  obtain ⟨hsrc, hW, hS, hB⟩ := hb
  rw [Nat.succ_mul] at hsrc hW
  obtain ⟨hfetch, -⟩ := h s
  obtain ⟨blk, hfetch, hblk⟩ := hfetch hf hbs hsrc
  obtain ⟨-, hheader, -⟩ := h (s.fetched blk)
  obtain ⟨-, -, hcodes, -⟩ := h ((s.fetched blk).headed (bias (s.fetched blk)))
  refine ⟨blk, fun j hj => by rw [hblk, if_pos hj, Nat.mul_comm],
    execRun_four_of_next hfetch (hheader rfl) (hcodes rfl) ?_⟩
  rw [State.passBlock, State.storeBlock_endBlock_eq]
  obtain ⟨-, -, -, hstore, -⟩ := h _
  exact hstore rfl hw hS hB hW

section PassBlock
variable (s : State) (blk : Vector Byte 34) (scale bias : Half) (out : Vector Byte 32)

@[simp] theorem State.passBlock_scale : (s.passBlock blk scale bias out).scale = scale := by
  rw [State.passBlock, State.storeBlock_endBlock_eq]
  rfl

@[simp] theorem State.passBlock_bias : (s.passBlock blk scale bias out).bias = bias := by
  rw [State.passBlock, State.storeBlock_endBlock_eq]
  rfl

@[simp] theorem State.passBlock_out : (s.passBlock blk scale bias out).out = out := by
  rw [State.passBlock, State.storeBlock_endBlock_eq]
  rfl

/-- R189: besides the block buffers and the output spaces only BIDX, DONE and FSM change. -/
theorem State.passBlock_blockPassed : BlockPassed s (s.passBlock blk scale bias out) := by
  rw [State.passBlock, State.storeBlock_endBlock_eq]
  rfl

variable {s} (hc : SpacesCanonical s)
include hc

theorem State.passBlock_halfAt_sSpace : (s.passBlock blk scale bias out).sSpace.halfAt s.bidx.toNat = scale := by
  obtain ⟨-, -, hS, -, -⟩ := hc
  rw [State.passBlock, State.storeBlock_endBlock_eq]
  exact Space.halfAt_pokeHalf_self hS scale

theorem State.passBlock_halfAt_bSpace : (s.passBlock blk scale bias out).bSpace.halfAt s.bidx.toNat = bias := by
  obtain ⟨-, -, -, hB, -⟩ := hc
  rw [State.passBlock, State.storeBlock_endBlock_eq]
  exact Space.halfAt_pokeHalf_self hB bias

variable (hW : s.wSpace.holds 4 (s.wordBase + s.wpbk.toNat) = true)
include hW

theorem State.passBlock_wordAt (k : Fin 8) (hk : k.val < s.wpbk.toNat) :
    (s.passBlock blk scale bias out).wSpace.wordAt (s.wordBase + k.val) = repack32 out k := by
  obtain ⟨-, hw, -, -, -⟩ := hc
  rw [State.passBlock, State.storeBlock_endBlock_eq]
  exact (storeWords_wordAt hw out hW k).trans (if_pos hk)

/-- R53: no byte outside the block's own elements changes. -/
theorem State.passBlock_onlyBlockWritten :
    OnlyBlockWritten s (s.passBlock blk scale bias out) s.latch s.bidx.toNat :=
  State.storeBlock_endBlock_onlyBlockWritten (s := { s.withBlockRegs blk scale bias out with fsm := .store }) hc hW

end PassBlock

/-! ## The codes of a word -/

theorem repack32_eq_append (out : Vector Byte 32) (k : Fin 8) :
    repack32 out k = out[4 * k.val + 3] ++ out[4 * k.val + 2] ++ out[4 * k.val + 1] ++ out[4 * k.val] :=
  zeroExtend_or_shiftLeft_bytes _ _ _ _

/-- R130: byte `j` of word `k` is staging byte `4k + j`. -/
theorem extractLsb'_repack32 (out : Vector Byte 32) (k : Fin 8) (j : Fin 4) :
    (repack32 out k).extractLsb' (8 * j.val) 8 = out[4 * k.val + j.val] := by
  rw [repack32_eq_append]
  simp only [BitVec.extractLsb'_append_eq_ite]
  fin_cases j <;> simp

/-- R77: code `c` of a word is a nibble of its byte `c div 2`. -/
theorem wordNibble_eq_extractLsb' (v : Word) (c : Nat) :
    wordNibble v c = (v.extractLsb' (8 * (c / 2)) 8).extractLsb' (4 * (c % 2)) 4 := by
  ext i hi
  have hin : 4 * (c % 2) + i < 8 := by omega
  have hbit : 8 * (c / 2) + (4 * (c % 2) + i) = 4 * c + i := by omega
  simp [wordNibble, hin, hbit]

theorem extractLsb'_ushiftRight (x : Byte) (n : Nat) : (x >>> n).extractLsb' 0 4 = x.extractLsb' n 4 := by
  ext i hi
  simp

theorem extractLsb'_and_low_mask (x : Byte) : (x &&& 0x0F).extractLsb' 0 4 = x.extractLsb' 0 4 := by
  have hmask : (0x0F : Byte).extractLsb' 0 4 = BitVec.allOnes 4 := by decide
  rw [BitVec.extractLsb'_and, hmask, BitVec.and_allOnes]

/-- R103: nibble `m` of dense bytes as four bits. -/
theorem extractLsb'_denseNibble (o : Vector Byte 16) (m : Fin 32) :
    (denseNibble o m).extractLsb' 0 4 = o[m.val / 2].extractLsb' (4 * (m.val % 2)) 4 := by
  rw [denseNibble, extractLsb'_and_low_mask, extractLsb'_ushiftRight]

/-- R75, R105: the sixteen code bytes from SRC offset `p` on. -/
def sourceWindow (src : Space) (p : Nat) : Vector Byte 16 := Vector.ofFn fun j => src.peek (p + j.val)

@[simp] theorem sourceWindow_getElem (src : Space) (p : Nat) {j : Nat} (hj : j < 16) :
    (sourceWindow src p)[j] = src.peek (p + j) := Vector.getElem_ofFn hj

/-- R75: the logical codes of a window of SRC, as four bits. -/
theorem extractLsb'_wireCode_sourceWindow (src : Space) (p : Nat) (m : Fin 32) :
    (wireCode (sourceWindow src p) m).extractLsb' 0 4 = lowBitCode src p m.val := by
  unfold wireCode lowBitCode
  split
  · rw [sourceWindow_getElem, extractLsb'_and_low_mask]
  · rw [sourceWindow_getElem, extractLsb'_ushiftRight]

/-- R141: where OUT holds the unpacked window, word `k` holds the logical codes `8k` to `8k + 7` in order. -/
theorem wordNibble_repack32 {out : Vector Byte 32} {src : Space} {p : Nat}
    (hout : ∀ i : Fin 16, out[i.val] = (nunpack (sourceWindow src p))[i.val]) {k : Fin 8} (hk : k.val < 4) {c : Nat}
    (hc : c < 8) : wordNibble (repack32 out k) c = lowBitCode src p (8 * k.val + c) := by
  have hbyte : out[4 * k.val + c / 2] = (nunpack (sourceWindow src p))[4 * k.val + c / 2] :=
    hout ⟨4 * k.val + c / 2, by omega⟩
  have hdiv : (8 * k.val + c) / 2 = 4 * k.val + c / 2 := by omega
  have hmod : (8 * k.val + c) % 2 = c % 2 := by omega
  calc wordNibble (repack32 out k) c
      = (nunpack (sourceWindow src p))[4 * k.val + c / 2].extractLsb' (4 * (c % 2)) 4 := by
        rw [wordNibble_eq_extractLsb', extractLsb'_repack32 out k ⟨c / 2, by omega⟩, hbyte]
    _ = (denseNibble (nunpack (sourceWindow src p)) ⟨8 * k.val + c, by omega⟩).extractLsb' 0 4 := by
        simp only [extractLsb'_denseNibble, hdiv, hmod]
    _ = lowBitCode src p (8 * k.val + c) := by
        rw [denseNibble_nunpack, extractLsb'_wireCode_sourceWindow]

/-! ## One block of a low-bit operation -/

/-- R140, R141: what a block leaves whose OUT holds the unpacked window at byte `p` of block BIDX. -/
theorem State.passBlock_lowBitBlock {s : State} (hc : SpacesCanonical s)
    (hW : s.wSpace.holds 4 (s.wordBase + s.wpbk.toNat) = true) (hw : s.wpbk.toNat = 4) {bs p : Nat} {scale : Half}
    {out : Vector Byte 32} (hscale : scale = sourceField s.srcSpace (bs * s.bidx.toNat))
    (hout : ∀ i : Fin 16, out[i.val] = (nunpack (sourceWindow s.srcSpace (bs * s.bidx.toNat + p)))[i.val])
    (blk : Vector Byte 34) (bias : Half) :
    LowBitBlock s (s.passBlock blk scale bias out) bs p s.bidx.toNat bias := by
  have hword (k : Fin 8) (hk : k.val < 4) :
      (s.passBlock blk scale bias out).wSpace.wordAt (4 * s.bidx.toNat + k.val) = repack32 out k := by
    rw [← State.passBlock_wordAt blk scale bias out hc hW k (by omega), State.wordBase, hw, Nat.mul_comm]
  rw [LowBitBlock, State.passBlock_scale, State.passBlock_bias, State.passBlock_out]
  refine ⟨hscale, rfl, hout, State.passBlock_halfAt_sSpace blk scale bias out hc,
    State.passBlock_halfAt_bSpace blk scale bias out hc, hword, fun k c hk hc8 => ?_⟩
  rw [hword ⟨k, by omega⟩ hk]
  exact wordNibble_repack32 hout hk hc8

/-- R188: CODES of a low-bit operation unpacks the code window of BLK. -/
theorem unpackedOut_getElem (s : State) (i : Fin 16) :
    (unpackedOut s)[i.val] = (nunpack (codeWindow s.blk s.coff))[i.val] :=
  (Vector.getElem_ofFn (Nat.lt_trans i.isLt (by decide))).trans (dif_pos i.isLt)

/-- R105: the code window of the block that FETCH read is that window of SRC. -/
theorem codeWindow_eq_sourceWindow {blk : Vector Byte 34} {src : Space} {n base : Nat}
    (hblk : ReadFrom src base n blk) {coff : BitVec 3} (hn : coff.toNat + 16 ≤ n) :
    codeWindow blk coff = sourceWindow src (base + coff.toNat) := by
  refine Vector.ext fun j hj => ?_
  have hcoff := coff.isLt
  have hlt : coff.toNat + j < n := by omega
  rw [codeWindow, Vector.getElem_ofFn, sourceWindow_getElem, Nat.add_assoc]
  exact hblk ⟨coff.toNat + j, by omega⟩ hlt

/-- R46, R120: a field of the block that FETCH read is that field of SRC. -/
theorem field_eq_sourceField {blk : Vector Byte 34} {src : Space} {n base : Nat}
    (hblk : ReadFrom src base n blk) {p : Nat} (hp : p + 1 < 34) (hn : p + 1 < n) :
    blk[p + 1] ++ blk[p] = sourceField src (base + p) := by
  have hlow : blk[p] = src.peek (base + p) := hblk ⟨p, by omega⟩ (Nat.lt_of_succ_lt hn)
  have hhigh : blk[p + 1] = src.peek (base + p + 1) := hblk ⟨p + 1, hp⟩ hn
  rw [sourceField, hlow, hhigh]

/-- From FETCH a low-bit operation decodes block BIDX, with the window and the addresses of its latch row. -/
theorem lowBitBlock_of_blockOutcomes {i : Instr} {bias : State → Half} (h : BlockOutcomes (exec i) bias unpackedOut)
    {s : State} {l : Latch} (hf : s.fsm = .fetch) (hl : s.latch = l) (hrow : l.InTable) (hk : l.kind ≠ .q8_0)
    (hc : SpacesCanonical s) (hb : BlockBound s l s.bidx.toNat) : ∃ (blk : Vector Byte 34) (t : State),
      ReadFrom s.srcSpace (l.bs.toNat * s.bidx.toNat) l.bs.toNat blk ∧ execRun i 4 s = .next t ∧
      LowBitBlock s t l.bs.toNat l.coff.toNat s.bidx.toNat (bias (s.fetched blk)) ∧
      OnlyBlockWritten s t l s.bidx.toNat ∧ BlockPassed s t := by
  subst hl
  obtain ⟨hbs4, -, hlow⟩ := hrow.reads
  obtain ⟨hcoff, hwpbk⟩ := hlow hk
  obtain ⟨q, b, hq⟩ := hrow
  obtain ⟨hbs, hw⟩ := latchOf_range hq
  obtain ⟨blk, hblk, hrun⟩ := execRun_four_of_blockOutcomes h hf hbs hw hb
  have hW : s.wSpace.holds 4 (s.wordBase + s.wpbk.toNat) = true := by
    obtain ⟨-, hW, -, -⟩ := hb
    rwa [Nat.succ_mul] at hW
  have hscale : blk[1] ++ blk[0] = sourceField s.srcSpace (s.bs.toNat * s.bidx.toNat) :=
    field_eq_sourceField hblk (by decide) (Nat.lt_of_lt_of_le (by decide) hbs4)
  have hwindow : codeWindow blk s.coff = sourceWindow s.srcSpace (s.bs.toNat * s.bidx.toNat + s.latch.coff.toNat) :=
    codeWindow_eq_sourceWindow hblk hcoff
  refine ⟨blk, _, hblk, hrun, State.passBlock_lowBitBlock hc hW hwpbk hscale (fun i => ?_) blk _,
    State.passBlock_onlyBlockWritten blk _ _ _ hc hW, State.passBlock_blockPassed ..⟩
  rw [unpackedOut_getElem, State.headed_blk, State.headed_coff, State.fetched_blk, State.fetched_coff, hwindow]

/-- Settles O20: the bias that HEADER derives is that of the block's first field. -/
theorem decQ40DecodesBlock : Obligations.DecQ40DecodesBlock := by
  refine ⟨fun f l o t => decodeDescriptor_q40 .., fun flags lastdim outer tag s hf hl hc hb => ?_⟩
  have hsteps : BlockOutcomes (exec (.decQ40 flags lastdim outer tag)) _ unpackedOut :=
    (decQ40Steps flags tag).2 lastdim outer
  obtain ⟨blk, t, hblk, hrun, hblock, hframe, hpass⟩ :=
    lowBitBlock_of_blockOutcomes hsteps hf hl ⟨2, false, rfl⟩ (by decide) hc hb
  have hfield : blk[1] ++ blk[0] = sourceField s.srcSpace (18 * s.bidx.toNat) :=
    field_eq_sourceField hblk (by decide) (by decide)
  rw [← hfield]
  exact ⟨t, hrun, hblock, hframe, hpass⟩

end Sys2Proof.Machine
end

section
/-! PROOFS. The explicit-bias operations (R150, R151, R153). DEC.Q4_1 and DEC.Q4_1L share their HEADER and CODES steps and
differ in the latch row alone, so the window at COFF is all that tells their blocks apart; and no two windows unpack to the
same bytes, as NUNPACK can be undone. -/

namespace Sys2Proof.Machine

/-! ## The steps -/

/-- R120, R150: HEADER reads SCALE and BIAS verbatim from the first four bytes of BLK. -/
theorem headerExplicit_eq (s : State) : headerExplicit s =
    { s with scale := s.blk[1] ++ s.blk[0], bias := s.blk[3] ++ s.blk[2], fsm := .codes } := by
  simp [headerExplicit, fld16_eq_append]

/-- Settles O15: DEC.Q4_1 is `runJobStep` with its row of R184 and a bias read from the block. -/
theorem decQ41Steps : Obligations.DecQ41Steps :=
  fun _ => ⟨runJobStep_checkOutcomes latchQ41 headerExplicit codesLowBit,
    fun _ _ => runJobStep_blockOutcomes headerExplicit_eq codesLowBit_eq⟩

/-- Settles O16: DEC.Q4_1L is DEC.Q4_1 with the literal row of R184. -/
theorem decQ41LSteps : Obligations.DecQ41LSteps :=
  fun _ => ⟨runJobStep_checkOutcomes latchQ41L headerExplicit codesLowBit,
    fun _ _ => runJobStep_blockOutcomes headerExplicit_eq codesLowBit_eq⟩

/-! ## One block -/

/-- R150, R151: with either latch row of Q4_1, the bias that HEADER reads is the second field of block BIDX. -/
theorem explicitBlock_of_blockOutcomes {i : Instr}
    (h : BlockOutcomes (exec i) (fun s => s.blk[3] ++ s.blk[2]) unpackedOut) {s : State} {l : Latch} {lit : Bool}
    (hrow : latchOf 3 lit = some l) {p : Nat} (hp : l.coff.toNat = p) (hf : s.fsm = .fetch) (hl : s.latch = l)
    (hc : SpacesCanonical s) (hb : BlockBound s l s.bidx.toNat) : ∃ t, execRun i 4 s = .next t ∧
      LowBitBlock s t 20 p s.bidx.toNat (sourceField s.srcSpace (20 * s.bidx.toNat + 2)) ∧
      OnlyBlockWritten s t l s.bidx.toNat ∧ BlockPassed s t := by
  obtain ⟨hk, hbs⟩ : l.kind ≠ .q8_0 ∧ l.bs.toNat = 20 := by cases lit <;> cases hrow <;> decide
  obtain ⟨blk, t, hblk, hrun, hblock, hframe, hpass⟩ := lowBitBlock_of_blockOutcomes h hf hl ⟨3, lit, hrow⟩ hk hc hb
  rw [hbs, hp] at hblock
  rw [hbs] at hblk
  have hfield : blk[3] ++ blk[2] = sourceField s.srcSpace (20 * s.bidx.toNat + 2) :=
    field_eq_sourceField hblk (by decide) (by decide)
  rw [← hfield]
  exact ⟨t, hrun, hblock, hframe, hpass⟩

/-- Settles O21: the documented row of R184 has the window at byte 4. -/
theorem decQ41DecodesBlock : Obligations.DecQ41DecodesBlock := by
  refine ⟨fun f l o t hlit => (decodeDescriptor_q41 f l o t).trans (by rw [hlit]; rfl),
    fun lastdim outer tag s hf hl hc hb => ?_⟩
  obtain ⟨-, hsteps⟩ := decQ41Steps tag
  exact explicitBlock_of_blockOutcomes (hsteps lastdim outer) (lit := false) rfl rfl hf hl hc hb

/-- Settles O22: the literal row of R184 has the window at byte 2. -/
theorem decQ41LDecodesBlock : Obligations.DecQ41LDecodesBlock := by
  refine ⟨fun f l o t hlit => (decodeDescriptor_q41 f l o t).trans (by rw [hlit]; rfl),
    fun lastdim outer tag s hf hl hc hb => ?_⟩
  obtain ⟨-, hsteps⟩ := decQ41LSteps tag
  exact explicitBlock_of_blockOutcomes (hsteps lastdim outer) (lit := true) rfl rfl hf hl hc hb

/-! ## The two windows -/

theorem codeWindow_getElem (blk : Vector Byte 34) (coff : BitVec 3) {j : Nat} (hj : j < 16) :
    (codeWindow blk coff)[j] = blk[coff.toNat + j]'(by have := coff.isLt; omega) :=
  Vector.getElem_ofFn hj

/-- R153: the literal window is the documented one two bytes later. -/
theorem codeWindow_two_getElem_add_two (blk : Vector Byte 34) {j : Nat} (hj : j + 2 < 16) :
    (codeWindow blk 2)[j + 2] = (codeWindow blk 4)[j] := by
  have haddr : 2 + (j + 2) = 4 + j := by omega
  rw [codeWindow_getElem, codeWindow_getElem]
  exact getElem_congr_idx haddr

/-- R75: where wire byte `i` of one window is wire byte `j` of another, so are both of its codes. -/
theorem wireCode_eq_of_getElem_eq {v w : Vector Byte 16} {i j : Nat} (hi : i < 16) (hj : j < 16) (h : v[i] = w[j]) :
    wireCode v ⟨i, by omega⟩ = wireCode w ⟨j, by omega⟩ ∧
      wireCode v ⟨16 + i, by omega⟩ = wireCode w ⟨16 + j, by omega⟩ := by
  rw [wireCode_low v hi, wireCode_low w hj, wireCode_high v hi, wireCode_high w hj, h]
  exact ⟨rfl, rfl⟩

/-- R106: NUNPACK loses nothing, as NPACK undoes it. -/
theorem nunpack_inj {v w : Vector Byte 16} : nunpack v = nunpack w ↔ v = w :=
  (Function.LeftInverse.injective npack_nunpack).eq_iff

/-- R153: the two windows of one block coincide where the block repeats with period two. -/
theorem codeWindow_two_eq_four_iff (blk : Vector Byte 34) :
    codeWindow blk 2 = codeWindow blk 4 ↔ ∀ j : Fin 16, blk[j.val + 2] = blk[j.val + 4] := by
  have hwindow (j : Fin 16) : (codeWindow blk 2)[j.val] = blk[j.val + 2] ∧ (codeWindow blk 4)[j.val] = blk[j.val + 4] := by
    rw [codeWindow_getElem, codeWindow_getElem]
    exact ⟨getElem_congr_idx (Nat.add_comm 2 _), getElem_congr_idx (Nat.add_comm 4 _)⟩
  constructor
  · intro heq j
    obtain ⟨h2, h4⟩ := hwindow j
    rw [← h2, ← h4, heq]
  · intro hblk
    refine Vector.ext fun j hj => ?_
    obtain ⟨h2, h4⟩ := hwindow ⟨j, hj⟩
    exact h2.trans ((hblk ⟨j, hj⟩).trans h4.symm)

/-- Settles O24: HEADER is the same step in both operations, the windows are two bytes apart, and NUNPACK is injective. -/
theorem q41WindowsDiffer : Obligations.Q41WindowsDiffer := by
  constructor
  · intro l o g l' o' g' s hf
    obtain ⟨-, hheader, -⟩ := (decQ41Steps g).2 l o s
    obtain ⟨-, hheaderL, -⟩ := (decQ41LSteps g').2 l' o' s
    exact ⟨_, _, hheader hf, hheaderL hf, rfl, rfl⟩
  · intro blk
    refine ⟨codeWindow_getElem blk 2 (by decide), codeWindow_getElem blk 2 (by decide),
      fun j => codeWindow_two_getElem_add_two blk (by omega), fun k => ?_,
      nunpack_inj.trans (codeWindow_two_eq_four_iff blk)⟩
    obtain ⟨hlow, hhigh⟩ := wireCode_eq_of_getElem_eq (by omega) (by omega)
      (codeWindow_two_getElem_add_two blk (j := k.val) (by omega))
    refine ⟨hlow, ?_⟩
    simpa only [Nat.add_comm 16] using hhigh

end Sys2Proof.Machine
end

section
/-! PROOFS. The byte-affine operation (R165, R166). DEC.Q8_0 derives its bias as DEC.Q4_0 does and does not unpack: CODES
flips the top bit of 32 code bytes and keeps their order, so code `4k + c` is byte `c` of word `k` of the block. -/

namespace Sys2Proof.Machine

/-! ## The steps -/

/-- R188: CODES of DEC.Q8_0 writes all of OUT from BLK. -/
theorem codesByte_eq (s : State) : codesByte s = { s with out := outByte s, fsm := .store } := rfl

/-- Settles O17: DEC.Q8_0 is `runJobStep` with its row of R184, a bias derived with k = 7 and the flipped bytes. -/
theorem decQ80Steps : Obligations.DecQ80Steps :=
  fun _ _ => ⟨runJobStep_checkOutcomes latchQ80 (headerImplicit 7) codesByte,
    fun _ _ => runJobStep_blockOutcomes (headerImplicit_eq 7) codesByte_eq⟩

/-! ## One block -/

/-- R165: OUT after CODES, from the block that FETCH read. -/
theorem outByte_eq_flip8_peek {s : State} {src : Space} {base : Nat} (hblk : ReadFrom src base 34 s.blk) (i : Fin 32) :
    (outByte s)[i.val] = flip8 (src.peek (base + 2 + i.val)) := by
  have hbyte : s.blk[2 + i.val] = src.peek (base + (2 + i.val)) := hblk ⟨2 + i.val, by omega⟩ (by omega)
  rw [outByte, Vector.getElem_ofFn, hbyte, Nat.add_assoc]

/-- R166: where OUT holds the flipped code bytes, byte `c` of word `k` is that of code `4k + c`. -/
theorem extractLsb'_repack32_of_flip8 {out : Vector Byte 32} {src : Space} {p : Nat}
    (hout : ∀ i : Fin 32, out[i.val] = flip8 (src.peek (p + i.val))) (k : Fin 8) {c : Nat} (hc : c < 4) :
    (repack32 out k).extractLsb' (8 * c) 8 = src.peek (p + (4 * k.val + c)) ^^^ 0x80 :=
  calc (repack32 out k).extractLsb' (8 * c) 8
      = out[4 * k.val + c] := extractLsb'_repack32 out k ⟨c, hc⟩
    _ = flip8 (src.peek (p + (4 * k.val + c))) := hout ⟨4 * k.val + c, by omega⟩

/-- R189: eight words a block, so word `k` of block BIDX is word `8 * BIDX + k` of W. -/
theorem State.passBlock_wordAt_of_wpbk_eq_eight {s : State} (hc : SpacesCanonical s)
    (hW : s.wSpace.holds 4 (s.wordBase + s.wpbk.toNat) = true) (hw : s.wpbk.toNat = 8) (blk : Vector Byte 34)
    (scale bias : Half) (out : Vector Byte 32) (k : Fin 8) :
    (s.passBlock blk scale bias out).wSpace.wordAt (8 * s.bidx.toNat + k.val) = repack32 out k := by
  rw [← State.passBlock_wordAt blk scale bias out hc hW k (by omega), State.wordBase, hw, Nat.mul_comm]

/-- Settles O23: four steps pass the block with the OUT that CODES wrote, and STORE writes it as eight words. -/
theorem decQ80DecodesBlock : Obligations.DecQ80DecodesBlock := by
  refine ⟨fun f l o t => decodeDescriptor_q80 .., fun flags lastdim outer tag s hf hl hc hb => ?_⟩
  obtain ⟨-, hsteps⟩ := decQ80Steps flags tag
  have hbs : s.bs.toNat = 34 := congrArg (fun l : Latch => l.bs.toNat) hl
  have hw : s.wpbk.toNat = 8 := congrArg (fun l : Latch => l.wpbk.toNat) hl
  rw [← hl] at hb ⊢
  obtain ⟨blk, hblk, hrun⟩ := execRun_four_of_blockOutcomes (hsteps lastdim outer) hf hbs.le hw.le hb
  have hW : s.wSpace.holds 4 (s.wordBase + s.wpbk.toNat) = true := by
    obtain ⟨-, hW, -, -⟩ := hb
    rwa [Nat.succ_mul] at hW
  rw [hbs] at hblk
  have hscale : blk[1] ++ blk[0] = sourceField s.srcSpace (34 * s.bidx.toNat) :=
    field_eq_sourceField hblk (by decide) (by decide)
  rw [← hscale]
  have hout (i : Fin 32) : (outByte ((s.fetched blk).headed (biasgen (blk[1] ++ blk[0]) 7)))[i.val] =
      flip8 (s.srcSpace.peek (34 * s.bidx.toNat + 2 + i.val)) := outByte_eq_flip8_peek hblk i
  refine ⟨_, hrun, ?_⟩
  rw [State.passBlock_scale, State.passBlock_bias, State.passBlock_out]
  refine ⟨rfl, rfl, hout, State.passBlock_halfAt_sSpace _ _ _ _ hc, State.passBlock_halfAt_bSpace _ _ _ _ hc,
    State.passBlock_wordAt_of_wpbk_eq_eight hc hW hw _ _ _ _, fun k c hk hc4 => ?_,
    State.passBlock_onlyBlockWritten _ _ _ _ hc hW, State.passBlock_blockPassed ..⟩
  rw [State.passBlock_wordAt_of_wpbk_eq_eight hc hW hw _ _ _ _ ⟨k, hk⟩]
  exact extractLsb'_repack32_of_flip8 hout ⟨k, hk⟩ hc4

end Sys2Proof.Machine
end

section
/-! PROOFS. The commands and the CHECK step (R181 to R185): what a START does, what a register write does while BUSY, and the
outcomes of CHECK. -/

namespace Sys2Proof.Machine

/-! ## START and the writes of a busy machine -/

/-- R11: CTRL stands at offset 0. -/
theorem hostRegWrite_ctrl (v : Word) (s : State) : hostRegWrite 0x00 v s = ctrlWrite v s := rfl

theorem exec_start (a : Bool) (r : BitVec 30) (s : State) : exec (.start a r) s = execStart a r s := rfl

/-- R196: a START changes nothing while the engine is busy. -/
theorem execStart_of_busy {s : State} (hb : s.busy = true) (a : Bool) (r : BitVec 30) : execStart a r s = .next s :=
  if_pos hb

theorem execAck_of_busy {s : State} (hb : s.busy = true) (r : BitVec 30) : execAck r s = .next s := if_pos hb

/-- R12, R196: no command takes effect while the engine is busy. -/
theorem ctrlWrite_of_busy {s : State} (hb : s.busy = true) (v : Word) : ctrlWrite v s = .next s := by
  rcases ctrlWrite_cases v s with ⟨-, e⟩ | ⟨-, -, e⟩ | ⟨-, -, e⟩
  · exact e.trans (execStart_of_busy hb ..)
  · exact e.trans (execAck_of_busy hb _)
  · exact e

/-- R29, R196: a register write to a busy machine changes nothing. -/
theorem hostRegWrite_of_busy {s : State} (hb : s.busy = true) {offset : Nat} (h4 : offset % 4 = 0) (h : offset < 0x20)
    (v : Word) : hostRegWrite offset v s = .next s := by
  by_cases h0 : offset = 0x00
  · rw [h0, hostRegWrite_ctrl, ctrlWrite_of_busy hb]
  · have hlocked : s.locked = true := by simp [State.locked, hb]
    rw [hostRegWrite_eq_regStore h4 h h0, State.regStore_locked hlocked]

/-- Settles O37: the host's turn is its first action, and that is a register write to a busy machine. -/
theorem registerWritesWhileBusyAreIgnored : Obligations.RegisterWritesWhileBusyAreIgnored := by
  intro s offset v rest hb h4 h hprog
  have hturn : hostTurn s = hostRegWrite offset v { s with prog := rest } := by
    simp [hostTurn, hprog, HostOp.polls, runHostOp]
  exact hturn.trans (hostRegWrite_of_busy (s := { s with prog := rest }) hb h4 h v)

/-- Settles O18: the four paths of a START, told apart by BUSY, the ACK bit and ERR. -/
theorem startOutcomes : Obligations.StartOutcomes := by
  refine ⟨fun v s hv => ?_, fun a r s => ?_⟩
  · rw [hostRegWrite_ctrl, exec_start]
    simpa [-BitVec.getLsbD_eq_getElem, hv] using ctrlWrite_cases v s
  · simp only [exec_start]
    have hcases := execStart_cases a r s
    refine ⟨fun hf => execStart_of_busy (State.busy_of_fsm_ne hf) a r, fun hf he ha => ?_, fun hf he ha => ?_,
      fun hf ha => ?_, fun t _ ht => ?_⟩
    · simpa [State.busy, hf, he, ha] using hcases
    · simpa [State.busy, hf, he, ha] using hcases
    · simpa [State.busy, hf, ha] using hcases
    · have hb : t.busy = true := State.busy_of_fsm_ne (by simp [ht])
      exact ⟨hb, by simp [State.locked, hb]⟩

/-! ## The block count -/

/-- R22, R185: the 64 bits of NBLK hold the block count. -/
theorem toNat_ofNat_blockCount (lastdim outer : Word) :
    (BitVec.ofNat 64 (blockCount lastdim outer)).toNat = blockCount lastdim outer := by
  have hlt : blockCount lastdim outer < 2 ^ 59 := blockCount_lt lastdim outer
  exact (BitVec.toNat_ofNat ..).trans (Nat.mod_eq_of_lt (by omega))

/-- R185: where the shape passes, the blocks hold all codes of the tensor and no more. -/
theorem mul_blockCount {lastdim : Word} (h : lastdim.toNat % 32 = 0) (outer : Word) :
    32 * blockCount lastdim outer = outer.toNat * lastdim.toNat := by
  rw [blockCount, Config.blockCodes, Nat.mul_left_comm, Nat.mul_div_cancel' (Nat.dvd_of_mod_eq_zero h)]

/-- Settles O43: from the bound on the count, which the model states once, and exact division. -/
theorem blockCountNeverWraps : Obligations.BlockCountNeverWraps :=
  ⟨fun lastdim outer => ⟨blockCount_lt lastdim outer, toNat_ofNat_blockCount lastdim outer,
    fun h => mul_blockCount h outer⟩, rfl, rfl⟩

/-! ## CHECK -/

/-- R184: there is no row for any other QTYPE. -/
theorem latchOf_unsupported {q : Word} (h2 : q ≠ 2) (h3 : q ≠ 3) (h8 : q ≠ 8) (lit : Bool) : latchOf q lit = none :=
  (if_neg h2).trans ((if_neg h3).trans (if_neg h8))

/-- R60, R283: the launch premises, as the sizes that the host has bound and its FLAGS write. -/
theorem launchProblem_eq_none_iff_extents (s : State) (l : Latch) (n : Nat) : launchProblem s l n = none ↔
    n * l.bs.toNat ≤ s.srcSpace.extent ∧ 4 * (n * l.wpbk.toNat) ≤ s.wSpace.extent ∧ 2 * n ≤ s.sSpace.extent ∧
      2 * n ≤ s.bSpace.extent ∧ (l.kind = .q4_1 → s.flagsChosen = true) := by
  simp only [launchProblem_eq_none, missingSpace_eq_none, Space.holds, decide_eq_true_eq, one_mul, and_assoc]

/-- R183, R255: the shape is tested before the type, so a bad shape is the error whatever the type is. -/
theorem engineTurn_of_badShape {s : State} (hf : s.fsm = .check) (h : s.lastdim.toNat % 32 ≠ 0) :
    engineTurn s = .next (s.rejectJob .incompatibleShape) := by
  cases hl : latchOf s.qtype s.lit with
  | none => rw [engineTurn_of_check_none hf hl, rejectDescriptor, if_neg fun hok => h ((shapeOk_iff _).1 hok)]
  | some l => rw [engineTurn_of_check_some hf hl, stepCheck_of_badShape h]

/-- R183, R255: an unsupported type with a good shape. -/
theorem engineTurn_of_badType {s : State} (hf : s.fsm = .check) (h : s.lastdim.toNat % 32 = 0) (h2 : s.qtype ≠ 2)
    (h3 : s.qtype ≠ 3) (h8 : s.qtype ≠ 8) : engineTurn s = .next (s.rejectJob .unsupportedType) := by
  rw [engineTurn_of_check_none hf (latchOf_unsupported h2 h3 h8 _), rejectDescriptor, if_pos ((shapeOk_iff _).2 h)]

/-- Settles O35: the errors in their order, then what CHECK makes of a row of the table. -/
theorem checkTestsShapeThenType : Obligations.CheckTestsShapeThenType := by
  refine ⟨fun _ => rfl, rfl, rfl, fun _ => rfl, fun q lit h2 h3 h8 => latchOf_unsupported h2 h3 h8 lit,
    launchProblem_eq_none_iff_extents, fun s hf => ⟨engineTurn_of_badShape hf, engineTurn_of_badType hf,
      fun l hshape hl => ?_⟩⟩
  rw [engineTurn_of_check_some hf hl]
  exact ⟨stepCheck_of_noBlocks hshape, stepCheck_of_launch hshape, fun _ hn hp => stepCheck_of_problem hshape hn hp⟩

end Sys2Proof.Machine
end

section
/-! PROOFS. The instruction of a step (R79, R84, R180, R182): the words it decodes, in CHECK and in a CTRL write, and past CHECK
the latch. -/

namespace Sys2Proof.Machine

/-! ## The turn of a step -/

/-- R193: a turn fixed in advance is taken off the list. -/
theorem step_of_sched_cons {s : State} {turn : Turn} {ts : List Turn} (h : s.sched = turn :: ts) :
    step s = runTurn turn { s with sched := ts } := by
  simp [step, takeTurn, h]

/-- R193: with no turn fixed and a host that has nothing to do, the engine moves. -/
theorem step_of_not_hostReady {s : State} (hsched : s.sched = []) (h : s.hostReady = false) : step s = engineTurn s := by
  simp [step, takeTurn, hsched, State.fairTurn, h, runTurn]

/-! ## The engine's instruction -/

/-- R182: CHECK runs what the descriptor decodes to. -/
theorem engineTurn_of_decode {s : State} {i : Instr} (hf : s.fsm = .check) (hi : decode .jd s.descriptor = .ok i) :
    engineTurn s = exec i s := by
  simp only [engineTurn, hf, hi]

/-- R180: the block steps run what the latch names. -/
theorem engineTurn_of_inBlock {s : State} (h : s.inBlock = true) : engineTurn s = exec s.running s := by
  rcases s.inBlock_iff.1 h with hf | hf | hf | hf <;> simp only [engineTurn, hf]

theorem State.flagsWord_getLsbD_zero (s : State) : s.flagsWord.getLsbD 0 = s.lit := by
  rw [State.flagsWord, flagBit_getLsbD]
  simp

/-- R16: FLAGS keeps the word that it reads as. -/
theorem State.flagsKept_flagsWord (s : State) : flagsKept s.flagsWord = s.flagsWord := by
  rw [flagsKept_eq_flagBit, State.flagsWord_getLsbD_zero, State.flagsWord]

/-- R80, R184: where the latch is the row of the descriptor, it names the operation that the descriptor decodes to. -/
theorem decode_descriptor_of_latchOf {s : State} (h : latchOf s.qtype s.lit = some s.latch) :
    decode .jd s.descriptor = .ok s.running := by
  show decodeDescriptor s.qtype s.flagsWord s.lastdim s.outer s.tag = .ok s.running
  by_cases h2 : s.qtype = 2
  · rw [h2] at h ⊢
    have hkind : s.kind = .q4_0 := (congrArg Latch.kind (Option.some.inj h)).symm
    simp only [decodeDescriptor_q40, s.flagsKept_flagsWord, State.running, hkind]
  by_cases h3 : s.qtype = 3
  · rw [h3] at h ⊢
    obtain ⟨hkind, hlitl⟩ : s.kind = .q4_1 ∧ s.litl = s.lit := by
      cases hlit : s.lit <;> rw [hlit] at h <;>
        exact ⟨(congrArg Latch.kind (Option.some.inj h)).symm, (congrArg Latch.litl (Option.some.inj h)).symm⟩
    rw [decodeDescriptor_q41, s.flagsWord_getLsbD_zero, State.running, hkind, hlitl]
    cases s.lit <;> rfl
  by_cases h8 : s.qtype = 8
  · rw [h8] at h ⊢
    have hkind : s.kind = .q8_0 := (congrArg Latch.kind (Option.some.inj h)).symm
    simp only [decodeDescriptor_q80, s.flagsKept_flagsWord, State.running, hkind]
  · rw [latchOf_unsupported h2 h3 h8] at h
    cases h

/-! ## The host's command -/

theorem hostTurn_of_ctrlWrite {s : State} {v : Word} {rest : List HostOp} {i : Instr}
    (hprog : s.prog = .regWrite 0x00 v :: rest) (hi : decode .cmd [v] = .ok i) :
    hostTurn s = exec i { s with prog := rest } := by
  have hturn : hostTurn s = ctrlWrite v { s with prog := rest } := by
    simp [hostTurn, hprog, HostOp.polls, runHostOp, hostRegWrite_ctrl]
  simp only [hturn, ctrlWrite, hi]

/-- A register write need not wait for the engine. -/
theorem State.fairTurn_of_regWrite {s : State} {offset : Nat} {v : Word} {rest : List HostOp}
    (hprog : s.prog = .regWrite offset v :: rest) : s.fairTurn = .host := by
  simp [State.fairTurn, State.hostReady, hprog, HostOp.polls]

/-- Settles O44: the turn is the list's or the fair policy's, and the instruction is what the engine or the host decodes. -/
theorem stepRunsDecodedInstruction : Obligations.StepRunsDecodedInstruction := by
  refine ⟨fun s i hsched hhost hf hi => ?_, fun s ts i hsched hf hi => ?_, fun s hsched hhost hb => ?_,
    fun s ts hsched hb => ?_, fun s hs hb => ?_, fun s v rest i hsched hprog hi => ?_,
    fun s ts v rest i hsched hprog hi => ?_⟩
  · rw [step_of_not_hostReady hsched hhost, engineTurn_of_decode hf hi]
  · exact (step_of_sched_cons hsched).trans (engineTurn_of_decode (s := { s with sched := ts }) hf hi)
  · rw [step_of_not_hostReady hsched hhost, engineTurn_of_inBlock hb]
  · exact (step_of_sched_cons hsched).trans (engineTurn_of_inBlock (s := { s with sched := ts }) hb)
  · obtain ⟨-, -, hlatch, -⟩ := hs
    exact decode_descriptor_of_latchOf (hlatch hb).1
  · have hturn : step s = hostTurn s := by
      simp [step, takeTurn, hsched, State.fairTurn_of_regWrite hprog, runTurn]
    exact hturn.trans (hostTurn_of_ctrlWrite hprog hi)
  · exact (step_of_sched_cons hsched).trans (hostTurn_of_ctrlWrite (s := { s with sched := ts }) hprog hi)

end Sys2Proof.Machine
end

section
/-! PROOFS. A job past CHECK always ends (R190, R193, R257). Under the invariant each block step has a meaning, and each takes
one off the steps that are left, the last of which ends the job. -/

namespace Sys2Proof.Machine

/-! ## One step of the engine alone -/

/-- R193: with nobody else to move, a run goes on from what the engine's step answers. -/
theorem run_succ_of_engineTurn {s t : State} (hsched : s.sched = []) (hprog : s.prog = []) (h : engineTurn s = .next t)
    (k : Nat) : Sys2Proof.core.run (k + 1) s = Sys2Proof.core.run k t :=
  run_succ_of_step ((step_eq_engineTurn hsched hprog).trans h) k

/-- Every run from a state with the invariant ends in one. -/
theorem StateInv.run {s t : State} (hs : StateInv s) {k : Nat} (h : Sys2Proof.core.run k s = .next t) : StateInv t := by
  induction k generalizing s with
  | zero => cases h; exact hs
  | succ k ih =>
    obtain ⟨u, hu, hrun⟩ := (run_succ_eq_next_iff k s t).1 h
    exact ih (stepKeepsInvariant s u hs hu) hrun

/-- R13: a job that has ended with DONE has no error. -/
theorem StatusExclusive.err_eq_false {s : State} (h : StatusExclusive s) (hd : s.done = true) : s.err = false := by
  obtain ⟨-, -, hexclusive⟩ := h
  simpa [hd] using hexclusive

/-! ## Every block step has a meaning -/

/-- R184: past CHECK the latch is a row of the table. -/
theorem StateInv.latch_inTable {s : State} (hs : StateInv s) (hb : s.inBlock = true) : s.latch.InTable := by
  obtain ⟨-, -, hlatch, -⟩ := hs
  exact ⟨_, _, (hlatch hb).1⟩

theorem Latch.InTable.range {l : Latch} (h : l.InTable) : l.bs.toNat ≤ 34 ∧ l.wpbk.toNat ≤ 8 := by
  obtain ⟨q, b, hl⟩ := h
  exact latchOf_range hl

/-- R190: past CHECK there is a block left. -/
theorem StateInv.bidx_lt_nblk {s : State} (hs : StateInv s) (hb : s.inBlock = true) : s.bidx.toNat < s.nblk.toNat := by
  obtain ⟨-, -, -, hloop, -⟩ := hs
  exact (hloop hb).2

/-- R283: past CHECK the storage of the current block is bound. -/
theorem StateInv.blockBound {s : State} (hs : StateInv s) (hb : s.inBlock = true) :
    BlockBound s s.latch s.bidx.toNat := by
  have hlt : s.bidx.toNat < s.nblk.toNat := hs.bidx_lt_nblk hb
  obtain ⟨-, -, -, -, hbound, -⟩ := hs
  obtain ⟨hsrc, hW, hS, hB⟩ := (missingSpace_eq_none s _ _).1 (hbound hb)
  exact ⟨Space.holds_mono (Nat.mul_le_mul_right _ hlt) hsrc, Space.holds_mono (Nat.mul_le_mul_right _ hlt) hW,
    Space.holds_mono hlt hS, Space.holds_mono hlt hB⟩

/-- R257: past CHECK no step of the engine stops. -/
theorem StateInv.engineTurn_answers {s : State} (hs : StateInv s) (hb : s.inBlock = true) :
    ∃ t, engineTurn s = .next t := by
  obtain ⟨hbs, hwpbk⟩ := (hs.latch_inTable hb).range
  obtain ⟨hsrc, hW, hS, hB⟩ := hs.blockBound hb
  rw [Nat.succ_mul] at hsrc hW
  rcases s.inBlock_iff.1 hb with hf | hf | hf | hf
  · exact ⟨_, (engineTurn_of_fetch hf).trans (stepFetch_eq_next hbs hsrc)⟩
  · exact ⟨_, engineTurn_of_header hf⟩
  · exact ⟨_, engineTurn_of_codes hf⟩
  · exact ⟨_, (engineTurn_of_store hf).trans (stepStore_eq_next hwpbk hS hB hW)⟩

/-! ## The steps that are left -/

/-- R180: how many of its four steps a block has behind it. -/
def Fsm.blockStepsDone : Fsm → Nat
  | .header => 1
  | .codes => 2
  | .store => 3
  | _ => 0

/-- R190: the steps that a job past CHECK has still to take. -/
def State.stepsLeft (s : State) : Nat := 4 * (s.nblk.toNat - s.bidx.toNat) - s.fsm.blockStepsDone

/-- R190: a block step is one of the steps that are left, and the last of them ends the job. -/
theorem EngineMove.stepsLeft {s t : State} (h : EngineMove s t) (hs : StateInv s) (hb : s.inBlock = true) :
    (t.inBlock = true ∧ s.stepsLeft = t.stepsLeft + 1) ∨
      (s.stepsLeft = 1 ∧ t.fsm = .idle ∧ t.done = true ∧ t.bidx = s.nblk) := by
  have hlt : s.bidx.toNat < s.nblk.toNat := hs.bidx_lt_nblk hb
  cases h with
  | rest hf | reject hf | finishEmpty hf | launch hf => simp [State.inBlock_iff, hf] at hb
  | fetch hf | header hf | codes hf =>
    refine .inl ⟨by simp [State.inBlock_iff], ?_⟩
    simp only [State.stepsLeft, hf, Fsm.blockStepsDone]
    omega
  | store hf =>
    have hleft : s.stepsLeft = 4 * (s.nblk.toNat - s.bidx.toNat) - 3 := by
      simp only [State.stepsLeft, hf, Fsm.blockStepsDone]
    have hnext : (s.bidx + 1).toNat = s.bidx.toNat + 1 := by bv_omega
    rcases s.storeBlock.endBlock_cases with ⟨hlast, e⟩ | ⟨hmore, e⟩ <;> rw [e]
    · have hlast' : s.bidx.toNat + 1 = s.nblk.toNat := hnext.symm.trans (congrArg BitVec.toNat hlast)
      exact .inr ⟨by omega, rfl, rfl, hlast⟩
    · have hmore' : s.bidx.toNat + 1 ≠ s.nblk.toNat := fun heq => hmore (BitVec.eq_of_toNat_eq (hnext.trans heq))
      refine .inl ⟨by simp [State.inBlock_iff], ?_⟩
      simp only [State.stepsLeft, State.storeBlock_nblk, State.storeBlock_bidx, hnext, hf, Fsm.blockStepsDone]
      omega

/-- A run past CHECK stays in the block steps until none is left, and then has ended with DONE. -/
theorem run_stepsLeft {s : State} (hs : StateInv s) (hb : s.inBlock = true) (hsched : s.sched = []) (hprog : s.prog = []) :
    (∃ t, Sys2Proof.core.run s.stepsLeft s = .next t ∧ t.fsm = .idle ∧ t.done = true ∧ t.bidx = s.nblk) ∧
      ∀ k, k < s.stepsLeft → ∃ t, Sys2Proof.core.run k s = .next t ∧ t.inBlock = true := by
  induction hn : s.stepsLeft using Nat.strong_induction_on generalizing s with
  | _ n ih =>
    subst hn
    obtain ⟨u, hu⟩ := hs.engineTurn_answers hb
    have hmove : EngineMove s u := engineTurn_next hu
    have hcheck : s.fsm ≠ .check := fun hf => by simp [State.inBlock_iff, hf] at hb
    obtain ⟨-, hnblk, -⟩ := hmove.job_eq hcheck
    obtain ⟨husched, huprog⟩ := engineTurn_keeps_host hu
    have hrun (k : Nat) : Sys2Proof.core.run (k + 1) s = Sys2Proof.core.run k u := run_succ_of_engineTurn hsched hprog hu k
    rcases hmove.stepsLeft hs hb with ⟨hub, hleft⟩ | ⟨hleft, hend⟩
    · obtain ⟨hfinal, hbusy⟩ :=
        ih u.stepsLeft (by omega) (hs.engineMove hmove) hub (husched.trans hsched) (huprog.trans hprog) rfl
      rw [hleft, hrun, ← hnblk]
      refine ⟨hfinal, fun k hk => ?_⟩
      cases k with
      | zero => exact ⟨s, rfl, hb⟩
      | succ k => rw [hrun]; exact hbusy k (by omega)
    · rw [hleft, hrun]
      refine ⟨⟨u, rfl, hend⟩, fun k hk => ?_⟩
      obtain rfl : k = 0 := by omega
      exact ⟨s, rfl, hb⟩

/-- Settles O26: in FETCH four steps are left for each block, and the invariant along the run says which status bits are 0. -/
theorem runningJobAlwaysCompletes : Obligations.RunningJobAlwaysCompletes := by
  intro s hs hf hsched hprog
  have hleft : s.stepsLeft = 4 * (s.nblk.toNat - s.bidx.toNat) := by simp [State.stepsLeft, hf, Fsm.blockStepsDone]
  obtain ⟨⟨t, hrun, hidle, hdone, hbidx⟩, hbusy⟩ := run_stepsLeft hs (s.inBlock_iff.2 (.inl hf)) hsched hprog
  rw [hleft] at hrun hbusy
  refine ⟨⟨t, hrun, ⟨hidle, ?_⟩, hdone, hbidx⟩, fun k hk => ?_⟩
  · obtain ⟨hstatus, -⟩ := hs.run hrun
    simp [hdone, hstatus.err_eq_false hdone]
  · obtain ⟨u, hu, hub⟩ := hbusy k hk
    obtain ⟨hub, -⟩ := Bool.and_eq_true_iff.1 hub
    obtain ⟨hstatus, -⟩ := hs.run hu
    exact ⟨u, hu, hub, (hstatus.clear_of_busy hub).2⟩

end Sys2Proof.Machine
end

section
/-! PROOFS. One block of a running job against `decodeBlock` (R194, R195). The four engine steps from FETCH pass the block for
whatever kind is latched; SCALE, BIAS and the words that they leave are those of the big-step function on the bytes of SRC. -/

namespace Sys2Proof.Machine

/-! ## The four steps -/

/-- R187: HEADER takes SCALE from the first two bytes of BLK, whatever the kind. -/
theorem headerOf_eq_headed (k : Kind) (s : State) : headerOf k s = s.headed (headerOf k s).bias := by
  cases k with
  | q4_0 => simp [headerOf, headerImplicit_eq, State.headed]
  | q4_1 => simp [headerOf, headerExplicit_eq, State.headed]
  | q8_0 => simp [headerOf, headerImplicit_eq, State.headed]

/-- R188: CODES writes OUT and no other register, whatever the kind. -/
theorem codesOf_eq (k : Kind) (s : State) : codesOf k s = { s with out := (codesOf k s).out, fsm := .store } := by
  cases k <;> rfl

/-- R187: the BIAS that the latched kind's HEADER finds in the block that FETCH read. -/
def State.biasOf (s : State) (blk : Vector Byte 34) : Half := (headerOf s.kind (s.fetched blk)).bias

/-- R188: the OUT that the latched kind's CODES leaves of that block. -/
def State.outOf (s : State) (blk : Vector Byte 34) : Vector Byte 32 :=
  (codesOf s.kind ((s.fetched blk).headed (s.biasOf blk))).out

/-- R186 to R189: with nobody else to move, four steps from FETCH pass the block that SRC holds. -/
theorem run_four_of_fetch {s : State} (hs : StateInv s) (hf : s.fsm = .fetch) (hsched : s.sched = []) (hprog : s.prog = []) :
    ∃ blk : Vector Byte 34, ReadFrom s.srcSpace s.blockBase s.bs.toNat blk ∧
      Sys2Proof.core.run 4 s = .next (s.passBlock blk (blk[1] ++ blk[0]) (s.biasOf blk) (s.outOf blk)) := by
  have hb : s.inBlock = true := s.inBlock_iff.2 (.inl hf)
  obtain ⟨hbs, hwpbk⟩ := (hs.latch_inTable hb).range
  obtain ⟨hsrc, hW, hS, hB⟩ := hs.blockBound hb
  rw [Nat.succ_mul] at hsrc hW
  let blk := fetchBlock s.srcSpace s.blockBase s.bs.toNat s.blk
  let u := s.fetched blk
  let v := u.headed (s.biasOf blk)
  let w : State := { v with out := s.outOf blk, fsm := .store }
  have hfetch : engineTurn s = .next u := (engineTurn_of_fetch hf).trans (stepFetch_eq_next hbs hsrc)
  have hheader : engineTurn u = .next v := (engineTurn_of_header rfl).trans (congrArg _ (headerOf_eq_headed s.kind u))
  have hcodes : engineTurn v = .next w := (engineTurn_of_codes rfl).trans (congrArg _ (codesOf_eq s.kind v))
  have hstore : engineTurn w = .next w.storeBlock.endBlock :=
    (engineTurn_of_store rfl).trans (stepStore_eq_next (s := w) hwpbk hS hB hW)
  refine ⟨blk, fun j hj => (fetchBlock_getElem ..).trans (if_pos hj), ?_⟩
  rw [run_succ_of_engineTurn hsched hprog hfetch, run_succ_of_engineTurn (s := u) hsched hprog hheader,
    run_succ_of_engineTurn (s := v) hsched hprog hcodes, run_succ_of_engineTurn (s := w) hsched hprog hstore]
  rfl

/-! ## The bytes of a block as a list -/

/-- R194: the bytes of block `b` stand in SRC from `b * BS` on. -/
theorem blockByte_sourceBlock (src : Space) {bs : Nat} (b : Nat) {i : Nat} (hi : i < bs) :
    blockByte (sourceBlock src bs b) i = src.peek (b * bs + i) := by
  simp [blockByte, sourceBlock, hi]

/-- R102, R195: the big-step unpacker is NUNPACK of the sixteen bytes from `p` on. -/
theorem blockByte_blockUnpack {bytes : List Byte} {p : Nat} {w : Vector Byte 16}
    (hw : ∀ j : Fin 16, w[j.val] = blockByte bytes (p + j.val)) (i : Fin 16) :
    blockByte (blockUnpack bytes p) i.val = (nunpack w)[i.val] := by
  induction i using Fin.addCases (m := 8) (n := 8) with
  | left i =>
    obtain ⟨hlow, -⟩ := nunpackClosedForm w i
    have heven := hw ⟨2 * i.val, by omega⟩
    have hodd := hw ⟨2 * i.val + 1, by omega⟩
    simp only [Fin.val_castAdd, hlow, heven, hodd]
    simp [blockByte, blockUnpack, List.getElem?_append]
  | right i =>
    obtain ⟨-, hhigh, -⟩ := nunpackClosedForm w i
    have heven := hw ⟨2 * i.val, by omega⟩
    have hodd := hw ⟨2 * i.val + 1, by omega⟩
    simp only [Fin.val_natAdd, hhigh, heven, hodd]
    simp [blockByte, blockUnpack, List.getElem?_append]

/-- R194: BLK holds the given bytes below BS. -/
def HoldsBytes (bytes : List Byte) (n : Nat) (blk : Vector Byte 34) : Prop :=
  ∀ (j : Nat) (h : j < 34), j < n → blk[j] = blockByte bytes j

theorem ReadFrom.holdsBytes {src : Space} {bs b : Nat} {blk : Vector Byte 34} (h : ReadFrom src (b * bs) bs blk) :
    HoldsBytes (sourceBlock src bs b) bs blk := by
  intro j hj hlt
  rw [blockByte_sourceBlock src b hlt]
  exact h ⟨j, hj⟩ hlt

section HoldsBytes
variable {bytes : List Byte} {n : Nat} {blk : Vector Byte 34} (h : HoldsBytes bytes n blk)
include h

theorem HoldsBytes.field {p : Nat} (hp : p + 1 < 34) (hn : p + 1 < n) : blk[p + 1] ++ blk[p] = blockField bytes p := by
  rw [blockField, h (p + 1) hp hn, h p (by omega) (by omega)]

theorem HoldsBytes.nunpack_codeWindow {coff : BitVec 3} (hn : coff.toNat + 16 ≤ n) (i : Fin 16) :
    (nunpack (codeWindow blk coff))[i.val] = blockByte (blockUnpack bytes coff.toNat) i.val := by
  have hcoff := coff.isLt
  refine (blockByte_blockUnpack (fun j => ?_) i).symm
  rw [codeWindow_getElem blk coff j.isLt, h (coff.toNat + j.val) (by omega) (by omega)]

end HoldsBytes

/-! ## The rows of the latch table against the big-step function -/

theorem Latch.InTable.eq_row {l : Latch} (h : l.InTable) :
    l = latchQ40 ∨ l = latchQ41 ∨ l = latchQ41L ∨ l = latchQ80 := by
  obtain ⟨q, b, hl⟩ := h
  unfold latchOf at hl
  split_ifs at hl <;> cases hl <;> decide

/-- R195: WPBK words are as many as the staging bytes of the kind. -/
theorem Latch.InTable.length_blockOut {l : Latch} (h : l.InTable) (bytes : List Byte) :
    (blockOut l.kind l.litl bytes).length = 4 * l.wpbk.toNat := by
  rcases h.eq_row with rfl | rfl | rfl | rfl <;> simp [blockOut, blockUnpack, latchQ40, latchQ41, latchQ41L, latchQ80]

/-- R195: a low-bit kind unpacks the bytes from COFF on. -/
theorem Latch.InTable.blockOut_eq_blockUnpack {l : Latch} (h : l.InTable) (hk : l.kind ≠ .q8_0) (bytes : List Byte) :
    blockOut l.kind l.litl bytes = blockUnpack bytes l.coff.toNat := by
  rcases h.eq_row with rfl | rfl | rfl | rfl
  · rfl
  · rfl
  · rfl
  · exact absurd rfl hk

/-- R195: word `k` of a block is four staging bytes. -/
theorem Latch.InTable.decodeBlock_word {l : Latch} (h : l.InTable) (bytes : List Byte) {k : Nat} (hk : k < l.wpbk.toNat) :
    (decodeBlock l.kind l.litl bytes).2.2.getD k 0 = blockWord (blockOut l.kind l.litl bytes) k := by
  simp [decodeBlock, h.length_blockOut, hk]

/-! ## What the steps leave -/

section Decoded
variable {s : State} {bytes : List Byte} {blk : Vector Byte 34} (hrow : s.latch.InTable)
  (h : HoldsBytes bytes s.bs.toNat blk)
include hrow h

/-- R187, R195: BIAS is that of the big-step function. -/
theorem State.biasOf_eq_blockBias : s.biasOf blk = blockBias s.kind bytes := by
  obtain ⟨hbs, -⟩ : 4 ≤ s.bs.toNat ∧ _ := hrow.reads
  have hscale : fld16 blk 0 = blockField bytes 0 :=
    (fld16_eq_append blk 0).trans (h.field (p := 0) (by decide) (by omega))
  have hbias : fld16 blk 2 = blockField bytes 2 :=
    (fld16_eq_append blk 2).trans (h.field (p := 2) (by decide) (by omega))
  unfold State.biasOf
  cases s.kind with
  | q4_0 => exact congrArg (biasgen · 3) hscale
  | q4_1 => exact hbias
  | q8_0 => exact congrArg (biasgen · 7) hscale

/-- R188, R195: OUT holds the staging bytes of the big-step function, as far as STORE reads it. -/
theorem State.outOf_getElem {i : Nat} (hi : i < 32) (hlt : i < 4 * s.wpbk.toNat) :
    (s.outOf blk)[i] = blockByte (blockOut s.kind s.litl bytes) i := by
  obtain ⟨-, hbyte, hlow⟩ := hrow.reads
  by_cases hk : s.kind = .q8_0
  · have hbs : s.bs.toNat = 34 := hbyte hk
    have hsrc : blk[2 + i] = blockByte bytes (2 + i) := h (2 + i) (by omega) (by omega)
    have hout : (s.outOf blk)[i] = flip8 blk[2 + i] := by
      rw [State.outOf, hk]
      exact Vector.getElem_ofFn hi
    rw [hout, hsrc, hk]
    simp [blockOut, blockByte, hi]
  · obtain ⟨hcoff, hwpbk⟩ : s.coff.toNat + 16 ≤ s.bs.toNat ∧ s.wpbk.toNat = 4 := hlow hk
    have hi16 : i < 16 := by omega
    have hcodes : s.outOf blk = unpackedOut ((s.fetched blk).headed (s.biasOf blk)) := by
      unfold State.outOf
      cases hkind : s.kind with
      | q4_0 | q4_1 => rfl
      | q8_0 => exact absurd hkind hk
    have hunpack : blockOut s.kind s.litl bytes = blockUnpack bytes s.coff.toNat :=
      hrow.blockOut_eq_blockUnpack hk bytes
    rw [hcodes, hunpack, unpackedOut_getElem _ ⟨i, hi16⟩]
    exact h.nunpack_codeWindow hcoff ⟨i, hi16⟩

/-- R130, R195: the words that STORE writes are those of the big-step function. -/
theorem State.repack32_outOf {k : Nat} (hk8 : k < 8) (hk : k < s.wpbk.toNat) :
    repack32 (s.outOf blk) ⟨k, hk8⟩ = (decodeBlock s.kind s.litl bytes).2.2.getD k 0 := by
  have hword : (decodeBlock s.kind s.litl bytes).2.2.getD k 0 = blockWord (blockOut s.kind s.litl bytes) k :=
    hrow.decodeBlock_word bytes hk
  have byte (j : Nat) (hj : j < 4) :
      (s.outOf blk)[4 * k + j] = blockByte (blockOut s.kind s.litl bytes) (4 * k + j) :=
    State.outOf_getElem hrow h (by omega) (by omega)
  rw [hword, repack32_eq_append, byte 3 (by omega), byte 2 (by omega), byte 1 (by omega),
    State.outOf_getElem hrow h (i := 4 * k) (by omega) (by omega), blockWord]

end Decoded

/-- R194: from FETCH, four steps decode block BIDX as the big-step function does, and write no other element. -/
theorem run_four_decodes_block {s : State} (hs : StateInv s) (hf : s.fsm = .fetch) (hsched : s.sched = [])
    (hprog : s.prog = []) : ∃ t, Sys2Proof.core.run 4 s = .next t ∧
      BlockDecoded s.latch s.srcSpace t s.bidx.toNat ∧ OnlyBlockWritten s t s.latch s.bidx.toNat ∧ BlockPassed s t := by
  have hb : s.inBlock = true := s.inBlock_iff.2 (.inl hf)
  have hrow : s.latch.InTable := hs.latch_inTable hb
  obtain ⟨hbs4, -⟩ : 4 ≤ s.bs.toNat ∧ _ := hrow.reads
  obtain ⟨-, hwpbk⟩ : _ ∧ s.wpbk.toNat ≤ 8 := hrow.range
  have hW : s.wSpace.holds 4 (s.wordBase + s.wpbk.toNat) = true := by
    obtain ⟨-, hW, -, -⟩ := hs.blockBound hb
    rwa [Nat.succ_mul] at hW
  have ⟨_, _, _, _, _, hc, _⟩ := hs
  obtain ⟨blk, hread, hrun⟩ := run_four_of_fetch hs hf hsched hprog
  have hbytes : HoldsBytes (sourceBlock s.srcSpace s.bs.toNat s.bidx.toNat) s.bs.toNat blk := ReadFrom.holdsBytes hread
  refine ⟨_, hrun, ⟨?_, ?_, fun k hk => ?_⟩, State.passBlock_onlyBlockWritten _ _ _ _ hc hW,
    State.passBlock_blockPassed ..⟩
  · exact (State.passBlock_halfAt_sSpace _ _ _ _ hc).trans (hbytes.field (p := 0) (by decide) (by omega))
  · exact (State.passBlock_halfAt_bSpace _ _ _ _ hc).trans (State.biasOf_eq_blockBias hrow hbytes)
  · have hk8 : k < 8 := Nat.lt_of_lt_of_le hk hwpbk
    exact (State.passBlock_wordAt _ _ _ _ hc hW ⟨k, hk8⟩ hk).trans (State.repack32_outOf hrow hbytes hk8 hk)

end Sys2Proof.Machine
end

section
/-! PROOFS. The whole job against the big-step rule (R194). `JobProgress` says what a job has done when its first blocks are
behind it; each four steps from FETCH carry it over one block, and at BIDX = NBLK it is the statement. -/

namespace Sys2Proof.Machine

/-! ## The blocks that are behind a job -/

/-- R194: from `s` on, a job with latch row `l` has decoded its first `n` blocks and written nothing else. -/
structure JobProgress (s t : State) (l : Latch) (n : Nat) : Prop where
  descriptor : SameDescriptor s t
  written : OnlyJobWritten s t l n
  decoded : ∀ b, b < n → BlockDecoded l s.srcSpace t b

/-- R183: the set-up of CHECK is a job with no block behind it. -/
theorem JobProgress.setUpJob (s : State) (l : Latch) (n : Nat) (done : Bool) (f : Fsm) :
    JobProgress s { s.setUpJob l n with done := done, fsm := f } l 0 where
  descriptor := ⟨rfl, rfl, rfl, rfl, rfl⟩
  written := ⟨rfl, rfl, rfl, rfl, fun _ _ => rfl, fun _ _ => rfl, fun _ _ => rfl⟩
  decoded b hb := absurd hb b.not_lt_zero

/-- The words of an earlier block lie below those of a later one. -/
theorem block_words_lt {b n k w : Nat} (hb : b < n) (hk : k < w) : b * w + k < n * w :=
  calc b * w + k < (b + 1) * w := by rw [Nat.succ_mul]; omega
    _ ≤ n * w := Nat.mul_le_mul_right w hb

/-- R53: writing block `n` leaves the earlier blocks decoded. -/
theorem BlockDecoded.of_onlyBlockWritten {l : Latch} {src : Space} {u t : State} {b n : Nat} (h : BlockDecoded l src u b)
    (hw : OnlyBlockWritten u t l n) (hb : b < n) : BlockDecoded l src t b := by
  obtain ⟨-, -, -, -, hS, hB, hW⟩ := hw
  obtain ⟨hscale, hbias, hwords⟩ := h
  refine ⟨?_, ?_, fun k hk => ?_⟩
  · exact (Space.halfAt_congr fun a _ ha => hS a (.inl (by omega))).trans hscale
  · exact (Space.halfAt_congr fun a _ ha => hB a (.inl (by omega))).trans hbias
  · have hlt : b * l.wpbk.toNat + k < n * l.wpbk.toNat := block_words_lt hb hk
    exact (Space.wordAt_congr fun a _ ha => hW a (.inl (by omega))).trans (hwords k hk)

/-- R53: a job that has written `n` blocks and writes one more has written `n + 1`. -/
theorem OnlyJobWritten.succ {s u t : State} {l : Latch} {n : Nat} (h : OnlyJobWritten s u l n)
    (hw : OnlyBlockWritten u t l n) : OnlyJobWritten s t l (n + 1) := by
  obtain ⟨hsrc, hSext, hBext, hWext, hS, hB, hW⟩ := h
  obtain ⟨hsrc', hSext', hBext', hWext', hS', hB', hW'⟩ := hw
  refine ⟨hsrc'.trans hsrc, hSext'.trans hSext, hBext'.trans hBext, hWext'.trans hWext, fun a ha => ?_, fun a ha => ?_,
    fun a ha => ?_⟩
  · exact (hS' a (.inr (by omega))).trans (hS a (by omega))
  · exact (hB' a (.inr (by omega))).trans (hB a (by omega))
  · have hsucc : (n + 1) * l.wpbk.toNat = n * l.wpbk.toNat + l.wpbk.toNat := Nat.succ_mul ..
    exact (hW' a (.inr (by omega))).trans (hW a (by omega))

theorem SameDescriptor.trans {s u t : State} (h : SameDescriptor s u) (h' : SameDescriptor u t) : SameDescriptor s t := by
  obtain ⟨hq, hlit, hl, ho, hg⟩ := h
  obtain ⟨hq', hlit', hl', ho', hg'⟩ := h'
  exact ⟨hq'.trans hq, hlit'.trans hlit, hl'.trans hl, ho'.trans ho, hg'.trans hg⟩

/-- One block more. -/
theorem JobProgress.succ {s u t : State} {l : Latch} {n : Nat} (h : JobProgress s u l n) (hd : SameDescriptor u t)
    (hw : OnlyBlockWritten u t l n) (hn : BlockDecoded l u.srcSpace t n) : JobProgress s t l (n + 1) where
  descriptor := h.descriptor.trans hd
  written := h.written.succ hw
  decoded b hb := by
    rcases Nat.lt_succ_iff_lt_or_eq.1 hb with hlt | rfl
    · exact (h.decoded b hlt).of_onlyBlockWritten hw hlt
    · have hsrc : u.srcSpace = s.srcSpace := h.written.1
      rwa [hsrc] at hn

/-! ## The run -/

/-- A run that answers is the beginning of every longer one. -/
theorem run_add_of_next {s u : State} {j : Nat} (h : Sys2Proof.core.run j s = .next u) (k : Nat) :
    Sys2Proof.core.run (k + j) s = Sys2Proof.core.run k u := by
  induction j generalizing s with
  | zero => cases h; rfl
  | succ j ih =>
    obtain ⟨v, hv, hrun⟩ := (run_succ_eq_next_iff j s u).1 h
    exact (run_succ_of_step hv (k + j)).trans (ih hrun)

/-- What a block that is passed leaves of the job's own state (R189). -/
theorem BlockPassed.job_eq {s t : State} (h : BlockPassed s t) :
    SameDescriptor s t ∧ t.latch = s.latch ∧ t.nblk = s.nblk ∧ t.bidx = s.bidx + 1 ∧ t.sched = s.sched ∧
      t.prog = s.prog ∧ (t.bidx ≠ t.nblk → t.fsm = .fetch) := by
  rw [h]
  exact ⟨⟨rfl, rfl, rfl, rfl, rfl⟩, rfl, rfl, rfl, rfl, rfl, fun hmore => if_neg hmore⟩

/-- R190: from FETCH a run of four steps for each block that is left decodes them all. -/
theorem run_jobProgress {s u : State} (hu : StateInv u) (hf : u.fsm = .fetch) (hsched : u.sched = []) (hprog : u.prog = [])
    (h : JobProgress s u u.latch u.bidx.toNat) : ∃ t, Sys2Proof.core.run (4 * (u.nblk.toNat - u.bidx.toNat)) u = .next t ∧
      JobProgress s t u.latch u.nblk.toNat := by
  induction hm : u.nblk.toNat - u.bidx.toNat generalizing u with
  | zero =>
    have hlt : u.bidx.toNat < u.nblk.toNat := hu.bidx_lt_nblk (u.inBlock_iff.2 (.inl hf))
    omega
  | succ m ih =>
    obtain ⟨v, hrun, hdecoded, hwritten, hpassed⟩ := run_four_decodes_block hu hf hsched hprog
    obtain ⟨hdesc, hlatch, hnblk, hbidx, hvsched, hvprog, hmore⟩ := BlockPassed.job_eq hpassed
    have hnext : v.bidx.toNat = u.bidx.toNat + 1 := by rw [hbidx]; bv_omega
    have hv : JobProgress s v u.latch (u.bidx.toNat + 1) := h.succ hdesc hwritten hdecoded
    rw [Nat.mul_succ, run_add_of_next hrun]
    by_cases hlast : v.bidx = v.nblk
    · have hall : u.bidx.toNat + 1 = u.nblk.toNat := by rw [← hnext, hlast, hnblk]
      obtain rfl : m = 0 := by omega
      exact ⟨v, rfl, hall ▸ hv⟩
    · rw [← hlatch, ← hnext] at hv
      rw [← hlatch, ← hnblk]
      exact ih (hu.run hrun) (hmore hlast) (hvsched.trans hsched) (hvprog.trans hprog) hv (by rw [hnblk]; omega)

section Job
variable {s : State} (hs : StateInv s) (hf : s.fsm = .check) (hsched : s.sched = []) (hprog : s.prog = [])
include hs hf hsched hprog

/-- R255, R256: a job that CHECK rejects has ended after one step, with memory unchanged. -/
theorem run_one_of_rejectJob {e : EngineError} (h : engineTurn s = .next (s.rejectJob e)) :
    Sys2Proof.core.run 1 s = .next { s with
      err := true, errcode := e.code, done := false, flagsChosen := false, fsm := .idle } := by
  obtain ⟨hstatus, -⟩ := hs
  have hdone : s.done = false := (hstatus.clear_of_busy (State.busy_of_fsm_ne (by simp [hf]))).1
  rw [run_succ_of_engineTurn hsched hprog h]
  simp [Host.Core.run, State.rejectJob, State.takeFlagsWrite, State.raise, hdone]

/-- R190, R194: CHECK and four steps for each block end a job that is launched, with all its blocks decoded. -/
theorem run_job {l : Latch} (hshape : s.lastdim.toNat % 32 = 0) (hl : latchOf s.qtype s.lit = some l)
    (hp : blockCount s.lastdim s.outer ≠ 0 → launchProblem s l (blockCount s.lastdim s.outer) = none) :
    ∃ t, Sys2Proof.core.run (1 + 4 * blockCount s.lastdim s.outer) s = .next t ∧ t.fsm = .idle ∧ t.done = true ∧
      JobProgress s t l (blockCount s.lastdim s.outer) := by
  have hcheck : engineTurn s = stepCheck l s.lastdim s.outer s := engineTurn_of_check_some hf hl
  rw [Nat.add_comm 1]
  by_cases hn : blockCount s.lastdim s.outer = 0
  · have hturn := hcheck.trans (stepCheck_of_noBlocks hshape hn)
    rw [run_succ_of_engineTurn hsched hprog hturn, hn]
    exact ⟨_, rfl, rfl, rfl, .setUpJob s l 0 true .idle⟩
  · let u : State := { s.setUpJob l (blockCount s.lastdim s.outer) with fsm := .fetch }
    have hturn : engineTurn s = .next u := hcheck.trans (stepCheck_of_launch hshape hn (hp hn))
    have hu : StateInv u := hs.engineMove (engineTurn_next hturn)
    have hnblk : u.nblk.toNat = blockCount s.lastdim s.outer := toNat_ofNat_blockCount s.lastdim s.outer
    obtain ⟨⟨t, hrun, ⟨hidle, -⟩, hdone, -⟩, -⟩ := runningJobAlwaysCompletes u hu rfl hsched hprog
    obtain ⟨t', hrun', hprogress⟩ := run_jobProgress (s := s) hu rfl hsched hprog (.setUpJob s l _ s.done .fetch)
    obtain rfl : t = t' := Host.Outcome.next.inj (hrun.symm.trans hrun')
    rw [hnblk] at hrun hprogress
    exact ⟨t, (run_succ_of_engineTurn hsched hprog hturn _).trans hrun, hidle, hdone, hprogress⟩

end Job

/-- Settles O25: the two errors of CHECK, and otherwise the progress of the job at its end, where the invariant leaves no error
beside DONE. -/
theorem jobComputesEveryBlock : Obligations.JobComputesEveryBlock := by
  intro s hs hf hsched hprog
  refine ⟨fun h => ⟨_, run_one_of_rejectJob hs hf hsched hprog (engineTurn_of_badShape hf h), rfl⟩,
    fun h h2 h3 h8 => ⟨_, run_one_of_rejectJob hs hf hsched hprog (engineTurn_of_badType hf h h2 h3 h8), rfl⟩,
    fun l hshape hl hp => ?_⟩
  obtain ⟨t, hrun, hidle, hdone, hprogress⟩ := run_job hs hf hsched hprog hshape hl hp
  obtain ⟨hstatus, herrcode, -⟩ := hs.run hrun
  have herr : t.err = false := hstatus.err_eq_false hdone
  exact ⟨t, hrun, hidle, hdone, herr, herrcode.errcode_eq_zero herr, hprogress.descriptor, hprogress.decoded,
    hprogress.written⟩

end Sys2Proof.Machine
end

section
/-! PROOFS. Names and shapes of the Assembler (R222 to R230): what name and shape give the three containers. -/

namespace Sys2Proof.Machine

/-! ## The base name -/

theorem baseName_append_weightSuffix (base : Key) : baseName (base ++ weightSuffix) = some base := by
  have hsuffix : weightSuffix.isSuffixOf (base ++ weightSuffix) = true :=
    List.isSuffixOf_iff_suffix.2 (List.suffix_append ..)
  simp [baseName, hsuffix]

/-- R229: the base is what stands before the suffix. -/
theorem baseName_eq_some_iff {name base : Key} : baseName name = some base ↔ name = base ++ weightSuffix := by
  refine ⟨fun h => ?_, fun h => h ▸ baseName_append_weightSuffix base⟩
  by_cases hs : weightSuffix.isSuffixOf name = true
  · obtain ⟨p, rfl⟩ := List.isSuffixOf_iff_suffix.1 hs
    rw [baseName_append_weightSuffix] at h
    rw [Option.some.inj h]
  · simp [baseName, hs] at h

theorem baseName_eq_none_iff {name : Key} : baseName name = none ↔ ∀ base, name ≠ base ++ weightSuffix := by
  simp only [Option.eq_none_iff_forall_ne_some, ne_eq, baseName_eq_some_iff]

/-- R230: the three suffixes tell the keys of a tensor apart. -/
theorem tensorKeys_nodup (base : Key) : [base ++ weightSuffix, base ++ scalesSuffix, base ++ biasesSuffix].Nodup :=
  List.Nodup.map (f := (base ++ ·)) (List.append_right_injective base)
    (show [weightSuffix, scalesSuffix, biasesSuffix].Nodup by decide)

/-! ## The shapes -/

@[simp] theorem divideLast_append_singleton (lead : List Nat) (last d : Nat) :
    divideLast (lead ++ [last]) d = lead ++ [last / d] := by
  simp [divideLast]

@[simp] theorem outerProduct_append_singleton (lead : List Nat) (last : Nat) :
    outerProduct (lead ++ [last]) = lead.prod := by
  simp [outerProduct]

@[simp] theorem weightShape_q40 (shape : List Nat) : weightShape 2 shape = some (divideLast shape 8) := rfl
@[simp] theorem weightShape_q41 (shape : List Nat) : weightShape 3 shape = some (divideLast shape 8) := rfl
@[simp] theorem weightShape_q80 (shape : List Nat) : weightShape 8 shape = some (divideLast shape 4) := rfl

/-- R222: there is no weight shape of an unsupported type. -/
theorem weightShape_unsupported {q : Word} (h2 : q ≠ 2) (h3 : q ≠ 3) (h8 : q ≠ 8) (shape : List Nat) :
    weightShape q shape = none := by
  have hcodes : codesPerWord q = none := (if_neg h2).trans ((if_neg h3).trans (if_neg h8))
  rw [weightShape, hcodes]
  rfl

/-- R223: the weight shape of a supported type. -/
theorem weightShape_supported {q : Word} (hq : q = 2 ∨ q = 3 ∨ q = 8) (shape : List Nat) :
    weightShape q shape = some (divideLast shape (if q = 8 then 4 else 8)) := by
  rcases hq with rfl | rfl | rfl <;> rfl

/-- Settles O49: 8, 4 and 32 divide a multiple of 32. -/
theorem outputShapesDivideExactly : Obligations.OutputShapesDivideExactly := by
  refine ⟨fun lead last h => ?_, rfl, rfl, rfl⟩
  simp only [weightShape_q40, weightShape_q41, weightShape_q80, scaleShape, Config.blockCodes,
    divideLast_append_singleton]
  exact ⟨⟨last / 8, by omega, rfl, rfl⟩, ⟨last / 4, by omega, rfl⟩, last / 32, by omega, rfl⟩

end Sys2Proof.Machine
end

section
/-! PROOFS. CONVERT up to the poll of its job (R220 to R227): one rule for each way it goes, the suffix first, then the
shape, then the type, then the widths. -/

namespace Sys2Proof.Machine

/-! ## The ways a CONVERT goes -/

section Convert
variable (map : MapHandle) {t : TensorView} {base : Key} {lead wshape : List Nat} {last : Nat} (s : State)

/-- R233: a name without the suffix is refused. -/
theorem hostConvert_of_noSuffix (h : baseName t.name = none) :
    hostConvert map t s = .refused (.noWeightSuffix t.name) := by
  simp only [hostConvert, h]

/-- R221, U7: an empty shape is refused. -/
theorem hostConvert_of_emptyShape (hname : baseName t.name = some base) (h : t.shape = []) :
    hostConvert map t s = .refused (.emptyShape t.name) := by
  simp only [hostConvert, hname, h, List.getLast?_nil]

/-- R222: a bad last dimension is reported, whatever the type is. -/
theorem hostConvert_of_badShape (hname : baseName t.name = some base) (hlast : t.shape.getLast? = some last)
    (h : last % 32 ≠ 0) :
    hostConvert map t s = .next { s with reports := s.reports ++ [.incompatibleShape t.name t.shape] } := by
  simp [hostConvert, hname, hlast, Config.blockCodes, h]

/-- R222: with a good shape, a type without a weight shape is reported. -/
theorem hostConvert_of_badType (hname : baseName t.name = some base) (hlast : t.shape.getLast? = some last)
    (h : last % 32 = 0) (htype : weightShape t.quantType t.shape = none) :
    hostConvert map t s = .next { s with reports := s.reports ++ [.unsupportedType t.name] } := by
  simp only [hostConvert, hname, hlast, Config.blockCodes, if_neg (not_not.2 h), htype]

/-- R226, U8: both checks pass, and what is left is whether the dimensions fit the registers. -/
theorem hostConvert_of_supported (hname : baseName t.name = some base) (hshape : t.shape = lead ++ [last])
    (h : last % 32 = 0) (htype : weightShape t.quantType t.shape = some wshape) : hostConvert map t s =
    if 2 ^ 32 ≤ last ∨ 2 ^ 32 ≤ lead.prod then .refused (.dimensionTooWide t.name)
    else .next { s with
      issued := (t.tag, t.name, t.shape) :: s.issued
      prog := launchOps t wshape last ++ (.collect map t :: s.prog) } := by
  have hlast : t.shape.getLast? = some last := by simp [hshape]
  have houter : outerProduct t.shape = lead.prod := by rw [hshape, outerProduct_append_singleton]
  simp only [hostConvert, hname, hlast, htype, houter, Config.blockCodes, if_neg (not_not.2 h)]

end Convert

/-- Settles O50: the suffix determines the base, the keys differ in their suffixes, and CONVERT tests the name first. -/
theorem baseNameStripsOneSuffix : Obligations.BaseNameStripsOneSuffix := by
  refine ⟨fun name base => ⟨baseName_eq_some_iff, fun h => ?_⟩, fun t s h map => ?_, by decide, by decide, by decide,
    by decide⟩
  · rw [baseName_eq_some_iff.1 h]
    exact tensorKeys_nodup base
  · exact hostConvert_of_noSuffix map s (baseName_eq_none_iff.2 h)

/-- Settles O53: the two reports of line 1. -/
theorem convertRejectsBeforeAllocation : Obligations.ConvertRejectsBeforeAllocation := by
  intro map t base last s hname hlast
  exact ⟨hostConvert_of_badShape map s hname hlast, fun h h2 h3 h8 =>
    hostConvert_of_badType map s hname hlast h (weightShape_unsupported h2 h3 h8 t.shape)⟩

/-! ## What a CONVERT queues -/

/-- R185, R224, R226: the block count of the descriptor is the size of the scale shape. -/
theorem blockCount_of_dimensions {last outer : Nat} (hlast : last < 2 ^ 32) (houter : outer < 2 ^ 32) :
    blockCount (BitVec.ofNat 32 last) (BitVec.ofNat 32 outer) = outer * (last / 32) := by
  simp only [blockCount, Config.blockCodes, BitVec.toNat_ofNat, Nat.mod_eq_of_lt hlast, Nat.mod_eq_of_lt houter]

/-- R189, R223: a block has 4 weight words in the low-bit schemes and 8 in the byte scheme. -/
theorem divideLast_prod (lead : List Nat) {last : Nat} (h : last % 32 = 0) (q : Word) :
    (divideLast (lead ++ [last]) (if q = 8 then 4 else 8)).prod =
      lead.prod * (last / 32) * (if q = 8 then 8 else 4) := by
  rw [divideLast_append_singleton, List.prod_append, List.prod_singleton, Nat.mul_assoc]
  congr 1
  split <;> omega

theorem scaleShape_prod (lead : List Nat) (last : Nat) :
    (scaleShape (lead ++ [last])).prod = lead.prod * (last / 32) := by
  simp [scaleShape, Config.blockCodes]

/-- R86, R226: FLAGS is written for Q4_1 only. -/
theorem decLine_eq (q tag outer lastdim : Word) (lit : Bool) :
    decLine q (if q = Config.qtQ41 then some lit else none) tag outer lastdim =
      [.regWrite 0x1C tag, .regWrite 0x18 outer, .regWrite 0x14 lastdim]
        ++ (if q = 3 then [.regWrite 0x10 (if lit then 1 else 0)] else []) ++ [.regWrite 0x0C q, .regWrite 0x00 1] := by
  by_cases hq : q = 3
  · subst hq
    cases lit <;> rfl
  · rw [if_neg hq, if_neg (show q ≠ Config.qtQ41 from hq)]
    rfl

/-- R226: the TAG issued last stands for the tensor it was issued with. -/
theorem State.tensorOf_of_issued {s : State} {tag : Word} {name : Key} {shape : List Nat}
    {older : List (Word × Key × List Nat)} (h : s.issued = (tag, name, shape) :: older) :
    s.tensorOf tag = some (name, shape) := by
  simp [State.tensorOf, h]

/-- Settles O58: the sizes of the containers and the words of the descriptor, put into the queue of a CONVERT. -/
theorem convertQueuesItsLaunch : Obligations.ConvertQueuesItsLaunch := by
  intro map t base s hname
  refine ⟨fun hempty => hostConvert_of_emptyShape map s hname hempty, fun lead last hshape h hq => ?_⟩
  intro blocks words
  have hconvert := hostConvert_of_supported map s hname hshape h (weightShape_supported hq t.shape)
  refine ⟨fun hwide => hconvert.trans (if_pos hwide), fun hlast hlead => ⟨blockCount_of_dimensions hlast hlead, ?_⟩⟩
  have hfits : ¬ (2 ^ 32 ≤ last ∨ 2 ^ 32 ≤ lead.prod) := by omega
  refine ⟨_, hconvert.trans (if_neg hfits), State.tensorOf_of_issued rfl, ?_⟩
  have hW : containerBytes .u32 (divideLast t.shape (if t.quantType = 8 then 4 else 8)) = 4 * words := by
    rw [containerBytes, hshape, divideLast_prod lead h]
  have hS : containerBytes .f16 (scaleShape t.shape) = 2 * blocks := by
    rw [containerBytes, hshape, scaleShape_prod]
  have houter : outerProduct t.shape = lead.prod := by rw [hshape, outerProduct_append_singleton]
  simp only [launchOps, hW, hS, houter, decLine_eq, List.append_assoc, List.cons_append, List.nil_append]

end Sys2Proof.Machine
end

section
/-! PROOFS. The host after the poll (R227, R234): what STATUS makes of a `collect`. -/

namespace Sys2Proof.Machine

section HostTurn
variable {s : State} {op : HostOp} {rest : List HostOp} (hprog : s.prog = op :: rest)
include hprog

/-- R86, R227: a poll that reads BUSY = 1 is repeated. -/
theorem hostTurn_of_polling (hp : op.polls = true) (hb : s.busy = true) : hostTurn s = .next s := by
  simp [hostTurn, hprog, hp, hb]

/-- R227: a poll that reads BUSY = 0 goes on, and so does every other action. -/
theorem hostTurn_of_ready (h : (op.polls && s.busy) = false) : hostTurn s = runHostOp op { s with prog := rest } := by
  simp only [hostTurn, hprog, h, Bool.false_eq_true, if_false]

end HostTurn

section Collect
variable (map : MapHandle) (t : TensorView) {s : State}

/-- R234: an error is reported with its record, and acknowledged. -/
theorem hostCollect_of_err (he : s.err = true) : hostCollect map t s = .next { s with
    reports := s.reports ++ [.engineError s.errorRecord (s.tensorOf s.tag)], prog := .regWrite 0x00 2 :: s.prog } :=
  if_pos he

/-- R227: a job that is done goes on to INSERT. -/
theorem hostCollect_of_done {wshape : List Nat} (he : s.err = false) (hd : s.done = true)
    (hw : weightShape t.quantType t.shape = some wshape) : hostCollect map t s = .next { s with
      prog := .insert map t.name wshape (scaleShape t.shape) .weights :: s.prog } := by
  simp [hostCollect, he, hd, hw]

/-- R281: a job that a reset abandoned runs again. -/
theorem hostCollect_of_abandoned (he : s.err = false) (hd : s.done = false) :
    hostCollect map t s = .next { s with prog := .convert map t :: s.prog } := by
  simp [hostCollect, he, hd]

end Collect

/-- Settles O54: BUSY tells whether the poll is repeated, ERR and DONE what follows it. -/
theorem collectFollowsStatus : Obligations.CollectFollowsStatus := by
  intro map t wshape rest s hprog hw
  have hready (hb : s.busy = false) : hostTurn s = hostCollect map t { s with prog := rest } :=
    hostTurn_of_ready hprog (by simp [hb])
  exact ⟨hostTurn_of_polling hprog rfl,
    fun hb he => (hready hb).trans (hostCollect_of_err map t he),
    fun _ _ _ => State.tensorOf_of_issued,
    fun hb he hd => (hready hb).trans (hostCollect_of_done map t he hd hw),
    fun hb he hd => (hready hb).trans (hostCollect_of_abandoned map t he hd)⟩

end Sys2Proof.Machine
end

section
/-! PROOFS. Insertion into a name map (R228, R231, R232): the literal and the staged insertion of any entries, and the one
action that changes a map. -/

namespace Sys2Proof.Machine

/-! ## Insertions -/

section InsertAll
variable {map : NameMap} {key : Key} (v : Tensor) (entries : List (Key × Tensor))

/-- R231: a present key stops the insertions. -/
theorem insertAll_cons_of_mem (h : key ∈ map.map (·.1)) : insertAll map ((key, v) :: entries) = (map, some key) := by
  simp only [insertAll, insertKey, if_pos h]

/-- R231: an absent key is appended. -/
theorem insertAll_cons_of_not_mem (h : key ∉ map.map (·.1)) :
    insertAll map ((key, v) :: entries) = insertAll (map ++ [(key, v)]) entries := by
  simp only [insertAll, insertKey, if_neg h]

end InsertAll

/-- R231: the insertions append the entries before the first collision, and report its key. -/
theorem insertAll_eq (map : NameMap) (entries : List (Key × Tensor)) :
    insertAll map entries = (map ++ entries, none) ∨
      ∃ pre key v tl, entries = pre ++ (key, v) :: tl ∧ key ∈ (map ++ pre).map (·.1) ∧
        insertAll map entries = (map ++ pre, some key) := by
  induction entries generalizing map with
  | nil => exact .inl (by simp [insertAll])
  | cons e rest ih =>
    obtain ⟨key, v⟩ := e
    by_cases hk : key ∈ map.map (·.1)
    · exact .inr ⟨[], key, v, rest, rfl, by simpa using hk, by simpa using insertAll_cons_of_mem v rest hk⟩
    · rw [insertAll_cons_of_not_mem v rest hk]
      rcases ih (map ++ [(key, v)]) with hall | ⟨pre, key', v', tl, hrest, hmem, hstop⟩
      · exact .inl (by simpa using hall)
      · exact .inr ⟨(key, v) :: pre, key', v', tl, by rw [hrest, List.cons_append], by simpa using hmem,
          by simpa using hstop⟩

/-- R231: the literal insertion keeps what went in before the collision. -/
theorem insertEntries_literal (map : NameMap) (entries : List (Key × Tensor)) :
    insertEntries false map entries = insertAll map entries := by
  unfold insertEntries
  rcases insertAll map entries with ⟨m, _ | key⟩ <;> rfl

/-- R232: the staged insertion takes the whole result, or on a collision its report only. -/
theorem insertEntries_staged (map : NameMap) (entries : List (Key × Tensor)) :
    insertEntries true map entries =
      (if (insertAll map entries).2 = none then (insertAll map entries).1 else map, (insertAll map entries).2) := by
  unfold insertEntries
  rcases insertAll map entries with ⟨m, _ | key⟩ <;> rfl

/-- Settles O51: the entries split at the first collision. -/
theorem insertionNeverOverwrites : Obligations.InsertionNeverOverwrites := by
  intro map map' entries r h
  rw [insertEntries_literal] at h
  refine ⟨?_, fun hnodup => ?_⟩
  · rcases insertAll_eq map entries with hall | ⟨pre, key, v, tl, hsplit, hmem, hstop⟩
    · cases h.symm.trans hall
      exact ⟨entries, [], by simp⟩
    · cases h.symm.trans hstop
      refine ⟨pre, (key, v) :: tl, hsplit, rfl, by simp, fun key' hkey => ?_⟩
      cases hkey
      exact ⟨v, tl, rfl, hmem⟩
  · have hkeys : ((insertAll map entries).1.map (·.1)).Nodup := insertAll_nodup hnodup entries
    rwa [h] at hkeys

/-- Settles O52: both variants make the same insertions, and differ in what they keep on a collision. -/
theorem atomicInsertionIsAllOrNothing : Obligations.AtomicInsertionIsAllOrNothing := by
  intro map entries
  rw [insertEntries_staged, insertEntries_literal]
  refine ⟨rfl, fun hcollision => if_neg hcollision, fun hnone => ?_⟩
  rcases insertAll_eq map entries with hall | ⟨_, key, _, _, _, _, hstop⟩
  · simp [hall]
  · simp [hstop] at hnone

/-! ## Who changes a map -/

theorem State.regStore_maps (s : State) (offset : Nat) (v : Word) : (s.regStore offset v).maps = s.maps := by
  rw [State.regStore_frame]

theorem State.setSpace_maps (s : State) (id : SpaceId) (sp : Space) : (s.setSpace id sp).maps = s.maps := by
  rw [State.setSpace_frame]

theorem State.pokeElem_maps (s : State) (id : SpaceId) (i : Nat) (v : Word) : (s.pokeElem id i v).maps = s.maps := by
  rw [State.pokeElem_frame]

/-- R12: a command is for the engine, and changes no map. -/
theorem ctrlWrite_maps {v : Word} {s t : State} (h : ctrlWrite v s = .next t) : t.maps = s.maps := by
  rcases ctrlWrite_cases v s with ⟨-, e⟩ | ⟨-, -, e⟩ | ⟨-, -, e⟩ <;> rw [e] at h
  · rcases execStart_cases (v.getLsbD 1) (v.extractLsb' 2 30) s with
      ⟨-, e⟩ | ⟨-, -, e⟩ | ⟨-, -, -, e⟩ | ⟨-, -, -, e⟩ <;> rw [e] at h <;> cases h <;> rfl
  · unfold execAck at h
    split at h <;> cases h <;> rfl
  · cases h
    rfl

/-- R228, R235: of the host's actions only an INSERT changes the maps, and only the one it is given. -/
theorem runHostOp_maps {op : HostOp} {s t : State} (h : runHostOp op s = .next t) :
    t.maps = s.maps ∨ ∃ map name w z stage m, op = .insert map name w z stage ∧ t.maps = setMap s.maps map m := by
  cases op with
  | regWrite offset v =>
    obtain ⟨-, ⟨-, hctrl⟩ | ⟨-, rfl⟩⟩ := hostRegWrite_next h
    · exact .inl (ctrlWrite_maps hctrl)
    · exact .inl (s.regStore_maps offset v)
  | regRead offset =>
    obtain ⟨-, rfl⟩ := hostRegRead_next h
    exact .inl rfl
  | narrowAccess offset bytes => cases h
  | bind id buffer =>
    obtain ⟨-, -, rfl⟩ := hostBind_next h
    exact .inl (s.setSpace_maps id buffer.toSpace)
  | readElem id i =>
    obtain ⟨-, -, rfl⟩ := hostReadElem_next h
    exact .inl rfl
  | writeElem id i v =>
    obtain ⟨-, -, rfl⟩ := hostWriteElem_next h
    exact .inl (s.pokeElem_maps id i v)
  | dec quantType lit tag outer lastdim => cases h; exact .inl rfl
  | wait => cases h; exact .inl rfl
  | convert map v => rw [(hostConvert_next h).1]; exact .inl rfl
  | collect map v => rw [hostCollect_next h]; exact .inl rfl
  | insert map name w z stage =>
    obtain ⟨-, -, entries, hmaps⟩ := hostInsert_next h
    exact .inr ⟨map, name, w, z, stage, _, rfl, hmaps⟩

/-- R228, R235: so it is of the host's turn, with the first of its actions. -/
theorem hostTurn_maps {s t : State} (h : hostTurn s = .next t) :
    t.maps = s.maps ∨
      ∃ map name w z stage rest m, s.prog = .insert map name w z stage :: rest ∧ t.maps = setMap s.maps map m := by
  rcases hostTurn_cases s with ⟨e, -⟩ | ⟨op, rest, hprog, -, e⟩ <;> rw [e] at h
  · cases h
    exact .inl rfl
  · refine (runHostOp_maps h).imp_right ?_
    rintro ⟨map, name, w, z, stage, m, rfl, hmaps⟩
    exact ⟨map, name, w, z, stage, rest, m, hprog, hmaps⟩

/-- R282: a reset inside a step leaves the maps. -/
theorem resetInStep_maps {k : Nat} {s t : State} (h : resetInStep k s = .next t) : t.maps = s.maps := by
  unfold resetInStep at h
  split at h
  · rw [(cutStore_next h).2, State.resetEvent_maps, State.storePrefix_maps]
  · cases h
    rfl

/-- R228, R235: of all steps only the host's INSERT changes the maps. -/
theorem step_maps {s t : State} (h : step s = .next t) :
    t.maps = s.maps ∨
      ∃ map name w z stage rest m, s.prog = .insert map name w z stage :: rest ∧ t.maps = setMap s.maps map m := by
  obtain ⟨turn, ts, e, -⟩ := step_eq_runTurn s
  rw [e] at h
  cases turn with
  | host => exact hostTurn_maps (s := { s with sched := ts }) h
  | engine => exact .inl (by rw [(engineTurn_next h).frame])
  | reset => cases h; exact .inl rfl
  | resetInStore k => exact .inl (resetInStep_maps (s := { s with sched := ts }) h)

/-- Settles O59: a map that has changed is the one that the INSERT was given. -/
theorem onlyItsOwnInsertChangesAMap : Obligations.OnlyItsOwnInsertChangesAMap := by
  refine ⟨lookupMap_setMap, fun s t h hstep hchanged => ?_⟩
  rcases step_maps hstep with hsame | ⟨map, name, w, z, stage, rest, m, hprog, hmaps⟩
  · rw [hsame] at hchanged
    exact absurd rfl hchanged
  · rw [hmaps, lookupMap_setMap] at hchanged
    by_cases hmap : h = map
    · subst hmap
      exact ⟨name, w, z, stage, rest, hprog⟩
    · exact absurd (if_neg hmap) hchanged

end Sys2Proof.Machine
end

section
/-! PROOFS. The stages of INSERT (R230, R231): one insertion in one step of the host, and the next stage after it. -/

namespace Sys2Proof.Machine

theorem stageBatch_literal (stage : InsertStage) : stageBatch false stage = [stage] := by cases stage <;> rfl

section Insert
variable {map : MapHandle} {name base : Key} {wshape sshape : List Nat} {stage : InsertStage} {s : State} {m : NameMap}
  (hname : baseName name = some base) (hb : s.busy = false) (hm : lookupMap s.maps map = m)
include hname hb hm

/-- R231, R234: a key that is present is reported, and no map changes. -/
theorem hostInsert_of_mem (hk : (s.entryOf name base wshape sshape stage).1 ∈ m.map (·.1)) :
    hostInsert map name wshape sshape stage s = .next { s with
      reports := s.reports ++ [.duplicateKey (s.entryOf name base wshape sshape stage).1 name] } := by
  have hne : m ≠ [] := fun h => by simp [h] at hk
  have hmaps : setMap s.maps map m = s.maps := by
    rw [← hm] at hne ⊢
    exact setMap_lookupMap hne
  simp [hostInsert, hb, hname, hm, Config.atomicInsert, insertEntries_literal, stageBatch_literal,
    insertAll_cons_of_mem _ [] hk, hmaps]

/-- R231: an absent key goes in with its container, and the next stage is queued. -/
theorem hostInsert_of_not_mem (hk : (s.entryOf name base wshape sshape stage).1 ∉ m.map (·.1)) :
    hostInsert map name wshape sshape stage s = .next { s with
      maps := setMap s.maps map (m ++ [s.entryOf name base wshape sshape stage])
      prog := ((nextStage false stage).map (.insert map name wshape sshape ·)).toList ++ s.prog } := by
  have hins : insertAll m [s.entryOf name base wshape sshape stage] =
      (m ++ [s.entryOf name base wshape sshape stage], none) := insertAll_cons_of_not_mem _ [] hk
  cases stage <;>
    simp [hostInsert, hb, hname, hm, Config.atomicInsert, insertEntries_literal, stageBatch_literal, hins, nextStage]

end Insert

/-- R193: a host with an INSERT to do moves. -/
theorem step_of_insert {map : MapHandle} {name : Key} {wshape sshape : List Nat} {stage : InsertStage} {s : State}
    {rest : List HostOp} (hsched : s.sched = []) (hprog : s.prog = .insert map name wshape sshape stage :: rest) :
    step s = hostInsert map name wshape sshape stage { s with prog := rest } := by
  have hturn : step s = hostTurn s := by
    simp [step, takeTurn, hsched, State.fairTurn, State.hostReady, hprog, HostOp.polls, runTurn]
  exact hturn.trans (hostTurn_of_ready hprog rfl)

/-- The state in which a conversion has put `entries` after what was in its map, and has the actions `prog` left. -/
def State.inserted (s : State) (map : MapHandle) (entries : NameMap) (prog : List HostOp) : State :=
  { s with maps := setMap s.maps map (lookupMap s.maps map ++ entries), prog := prog }

section Stages
variable {map : MapHandle} {name base : Key} {wshape sshape : List Nat} {stage : InsertStage} {s : State}
  {entries : NameMap} (hname : baseName name = some base) (hf : s.fsm = .idle) (hsched : s.sched = [])

theorem lookupMap_inserted (prog : List HostOp) :
    lookupMap (s.inserted map entries prog).maps map = lookupMap s.maps map ++ entries := by
  simp [State.inserted, lookupMap_setMap]

/-- The containers that go in are those of the job. -/
theorem State.inserted_entryOf (prog : List HostOp) :
    (s.inserted map entries prog).entryOf name base wshape sshape stage = s.entryOf name base wshape sshape stage := rfl

include hname hf hsched

/-- R231: a later stage appends its entry to those of the earlier ones. -/
theorem step_inserted_of_not_mem (hold : (s.entryOf name base wshape sshape stage).1 ∉ (lookupMap s.maps map).map (·.1))
    (hnew : (s.entryOf name base wshape sshape stage).1 ∉ entries.map (·.1)) :
    step (s.inserted map entries [.insert map name wshape sshape stage]) =
      .next (s.inserted map (entries ++ [s.entryOf name base wshape sshape stage])
        ((nextStage false stage).map (.insert map name wshape sshape ·)).toList) := by
  have hk : (s.entryOf name base wshape sshape stage).1 ∉ (lookupMap s.maps map ++ entries).map (·.1) := by
    rw [List.map_append, List.mem_append]
    exact not_or.2 ⟨hold, hnew⟩
  rw [step_of_insert (s := s.inserted map entries [.insert map name wshape sshape stage]) hsched rfl]
  refine (hostInsert_of_not_mem (s := s.inserted map entries []) hname (s.busy_eq_false_iff.2 hf)
    (lookupMap_inserted []) hk).trans ?_
  rw [State.inserted_entryOf]
  simp only [State.inserted, setMap_setMap, List.append_assoc, List.append_nil]

/-- R231: a later stage that meets its key leaves the entries of the earlier ones. -/
theorem step_inserted_of_mem (hold : (s.entryOf name base wshape sshape stage).1 ∈ (lookupMap s.maps map).map (·.1)) :
    step (s.inserted map entries [.insert map name wshape sshape stage]) =
      .next { s.inserted map entries [] with
        reports := s.reports ++ [.duplicateKey (s.entryOf name base wshape sshape stage).1 name] } := by
  have hk : (s.entryOf name base wshape sshape stage).1 ∈ (lookupMap s.maps map ++ entries).map (·.1) := by
    rw [List.map_append, List.mem_append]
    exact .inl hold
  exact (step_of_insert (s := s.inserted map entries [.insert map name wshape sshape stage]) hsched rfl).trans
    (hostInsert_of_mem (s := s.inserted map entries []) hname (s.busy_eq_false_iff.2 hf) (lookupMap_inserted []) hk)

end Stages

/-- Settles O55: the keys of a tensor differ, so each stage meets only what was in the map before. -/
theorem insertStagesCommitInOrder : Obligations.InsertStagesCommitInOrder := by
  intro map name base wshape sshape s hname hf hsched hprog old keys kS kB eW eS eB
  obtain ⟨⟨hWS, hWB⟩, hSB⟩ : (name ≠ kS ∧ name ≠ kB) ∧ kS ≠ kB := by
    have hdistinct : [name, kS, kB].Nodup := baseName_eq_some_iff.1 hname ▸ tensorKeys_nodup base
    simpa using hdistinct
  have hb : s.busy = false := s.busy_eq_false_iff.2 hf
  have weights (hW : name ∉ keys) : step s = .next (s.inserted map [eW] [.insert map name wshape sshape .scales]) :=
    (step_of_insert hsched hprog).trans (hostInsert_of_not_mem (s := { s with prog := [] }) hname hb rfl hW)
  have scales (hS : kS ∉ keys) : step (s.inserted map [eW] [.insert map name wshape sshape .scales]) =
      .next (s.inserted map [eW, eS] [.insert map name wshape sshape .biases]) :=
    step_inserted_of_not_mem hname hf hsched hS (show kS ∉ [name] by simpa using hWS.symm)
  have biases (hB : kB ∉ keys) : step (s.inserted map [eW, eS] [.insert map name wshape sshape .biases]) =
      .next (s.inserted map [eW, eS, eB] []) :=
    step_inserted_of_not_mem hname hf hsched hB (show kB ∉ [name, kS] by simpa using ⟨hWB.symm, hSB.symm⟩)
  refine ⟨fun hW hS hB => ?_, fun hW => ?_, fun hW hS => ?_, fun hW hS hB => ?_⟩
  · rw [run_succ_of_step (weights hW), run_succ_of_step (scales hS), run_succ_of_step (biases hB)]
    rfl
  · have hdup := (step_of_insert hsched hprog).trans (hostInsert_of_mem (s := { s with prog := [] }) hname hb rfl hW)
    rw [run_succ_of_step hdup]
    rfl
  · rw [run_succ_of_step (weights hW), run_succ_of_step (step_inserted_of_mem hname hf hsched hS)]
    rfl
  · rw [run_succ_of_step (weights hW), run_succ_of_step (scales hS),
      run_succ_of_step (step_inserted_of_mem hname hf hsched hB)]
    rfl

end Sys2Proof.Machine
end

section
/-! PROOFS. Errors (R256 to R258): of all steps only CHECK records one, as `State.rejectJob` does, and an ACK takes it back. -/

namespace Sys2Proof.Machine

/-! ## Who records an error -/

/-- R256, R257: the engine records an error in CHECK only, and then the job is rejected. -/
theorem EngineMove.eq_rejectJob {s t : State} (h : EngineMove s t) (hs : s.err = false) (ht : t.err = true) :
    s.fsm = .check ∧ ∃ e, t = s.rejectJob e := by
  by_cases hf : s.fsm = .check
  · cases h with
    | reject _ e => exact ⟨hf, e, rfl⟩
    | rest | finishEmpty | launch => exact absurd (hs.symm.trans ht) Bool.false_ne_true
    | fetch hf' | header hf' | codes hf' | store hf' => cases hf.symm.trans hf'
  · obtain ⟨-, -, herr, -⟩ := h.job_eq hf
    exact absurd (hs.symm.trans (herr.symm.trans ht)) Bool.false_ne_true

/-- R14: the host records no error. -/
theorem HostMove.err_eq_false {s t : State} (h : HostMove s t) (hs : s.err = false) : t.err = false := by
  cases h with
  | regStore => rw [State.regStore_frame]; exact hs
  | bind => rw [State.setSpace_frame]; exact hs
  | writeElem => rw [State.pokeElem_frame]; exact hs
  | acknowledge | acknowledgeStart => rfl
  | lists | start | insert => exact hs

/-- R280, R281: a reset inside a step that answers is the reset of some state. -/
theorem resetInStep_next {k : Nat} {s t : State} (h : resetInStep k s = .next t) : ∃ u : State, t = u.resetEvent := by
  unfold resetInStep at h
  split at h
  · exact ⟨_, (cutStore_next h).2⟩
  · cases h
    exact ⟨s, rfl⟩

/-- R256, R257: a step that records an error is the engine's CHECK, which rejects the job. -/
theorem step_eq_rejectJob {s t : State} (h : step s = .next t) (hs : s.err = false) (ht : t.err = true) :
    s.fsm = .check ∧ ∃ e ts, t = ({ s with sched := ts } : State).rejectJob e := by
  obtain ⟨turn, ts, e, -⟩ := step_eq_runTurn s
  rw [e] at h
  cases turn with
  | host =>
    obtain ⟨rest, hmove⟩ := hostTurn_next h
    exact absurd ((hmove.err_eq_false hs).symm.trans ht) Bool.false_ne_true
  | engine =>
    obtain ⟨hf, err, rfl⟩ := (engineTurn_next h).eq_rejectJob hs ht
    exact ⟨hf, err, ts, rfl⟩
  | reset => cases h; cases ht
  | resetInStore k =>
    obtain ⟨u, rfl⟩ := resetInStep_next h
    cases ht

theorem EngineError.code_eq_one_or_two (e : EngineError) : e.code = 1 ∨ e.code = 2 := by
  cases e
  · exact .inl rfl
  · exact .inr rfl

/-- Settles O34: the step is a rejected job, and a recorded error locks the descriptor (R29). -/
theorem onlyCheckRaisesErrors : Obligations.OnlyCheckRaisesErrors := by
  intro s t h hs ht
  obtain ⟨hf, e, ts, rfl⟩ := step_eq_rejectJob h hs ht
  exact ⟨hf, e.code_eq_one_or_two, rfl, by simp [State.locked]⟩

/-! ## ACK -/

theorem exec_ack (r : BitVec 30) (s : State) : exec (.ack r) s = execAck r s := rfl

/-- R258: to an idle machine an ACK is acknowledged. -/
theorem execAck_of_idle {s : State} (hf : s.fsm = .idle) (r : BitVec 30) : execAck r s = .next s.acknowledge :=
  if_neg (by simp [State.busy, hf])

/-- R258: with no status and no error code there is nothing to acknowledge. -/
theorem State.acknowledge_of_clear {s : State} (hd : s.done = false) (he : s.err = false) (hcode : s.errcode = 0) :
    s.acknowledge = s := by
  cases s
  simp_all [State.acknowledge]

/-- Settles O19: BUSY decides whether the ACK is ignored, and without an error ERRCODE is 0 already (R14). -/
theorem ackOutcomes : Obligations.AckOutcomes := by
  refine ⟨fun v s h0 h1 => ?_, fun r s => ⟨fun hf => ⟨execAck_of_idle hf r, ?_⟩, fun hf => ?_, fun hf hcode hd he => ?_⟩⟩
  · rw [hostRegWrite_ctrl, exec_ack]
    simpa [-BitVec.getLsbD_eq_getElem, h0, h1] using ctrlWrite_cases v s
  · simp [State.locked, State.busy, hf]
  · exact execAck_of_busy (State.busy_of_fsm_ne hf) r
  · rw [exec_ack, execAck_of_idle hf, State.acknowledge_of_clear hd he (hcode.errcode_eq_zero he)]

end Sys2Proof.Machine
end

section
/-! PROOFS. Reset, the FLAGS write of a launch and the spaces of a running job (R280 to R291): what a reset turn leaves, who
sets and who takes the mark `flagsChosen`, and that no move of the host reaches a space while BUSY. -/

namespace Sys2Proof.Machine

/-! ## The reset turn -/

/-- Settles O33: the turn comes off its list, and the reset event says the rest field by field. -/
theorem resetTurnKeepsMemory : Obligations.ResetTurnKeepsMemory := fun s ts hsched =>
  ⟨({ s with sched := ts } : State).resetEvent, step_of_sched_cons hsched,
    rfl, rfl, rfl, rfl, rfl, rfl, rfl, rfl, rfl, rfl, rfl, rfl, rfl, rfl, rfl, rfl, rfl, rfl, rfl, rfl⟩

/-! ## The FLAGS write of a job -/

/-- R283 (P4), R291: every CHECK that answers takes the mark. -/
theorem EngineMove.takes_flagsWrite {s t : State} (h : EngineMove s t) (hf : s.fsm = .check) : t.flagsChosen = false := by
  cases h with
  | reject | finishEmpty | launch => rfl
  | rest hf' | fetch hf' | header hf' | codes hf' | store hf' => cases hf.symm.trans hf'

/-- R184: the row of QTYPE = 3, with either window, is of kind Q4_1. -/
theorem latchOf_q41_kind {lit : Bool} {l : Latch} (h : latchOf Config.qtQ41 lit = some l) : l.kind = .q4_1 := by
  cases lit <;> cases h <;> rfl

/-- R283 (P4): a Q4_1 job goes on to FETCH only with the mark. -/
theorem EngineMove.flagsChosen_of_launch {s t : State} (h : EngineMove s t) (hf : s.fsm = .check)
    (hq : s.qtype = Config.qtQ41) (ht : t.fsm = .fetch) : s.flagsChosen = true := by
  cases h with
  | launch _ hl _ _ hp =>
    rw [hq] at hl
    obtain ⟨-, hflags⟩ := (launchProblem_eq_none s _ _).1 hp
    exact hflags (latchOf_q41_kind hl)
  | reject | finishEmpty => cases ht
  | rest hf' | fetch hf' | header hf' | codes hf' | store hf' => cases hf.symm.trans hf'

/-- R283: a START keeps the mark, accepted or not. -/
theorem execStart_flagsChosen {a : Bool} {r : BitVec 30} {s t : State} (h : execStart a r s = .next t) :
    t.flagsChosen = s.flagsChosen := by
  rcases execStart_cases a r s with ⟨-, e⟩ | ⟨-, -, e⟩ | ⟨-, -, -, e⟩ | ⟨-, -, -, e⟩ <;> rw [e] at h <;> cases h <;> rfl

/-- R258: an ACK keeps the mark. -/
theorem execAck_flagsChosen {r : BitVec 30} {s t : State} (h : execAck r s = .next t) : t.flagsChosen = s.flagsChosen := by
  unfold execAck at h
  split at h <;> cases h <;> rfl

theorem ctrlWrite_flagsChosen {v : Word} {s t : State} (h : ctrlWrite v s = .next t) : t.flagsChosen = s.flagsChosen := by
  rcases ctrlWrite_cases v s with ⟨-, e⟩ | ⟨-, -, e⟩ | ⟨-, -, e⟩ <;> rw [e] at h
  · exact execStart_flagsChosen h
  · exact execAck_flagsChosen h
  · cases h
    rfl

/-- R29: of the register writes only an unlocked one to FLAGS sets the mark. -/
theorem State.regStore_flagsChosen (s : State) (offset : Nat) (v : Word) :
    (s.regStore offset v).flagsChosen = s.flagsChosen ∨ s.locked = false ∧ offset = flagsOffset := by
  by_cases hl : s.locked = true
  · rw [State.regStore_locked hl]
    exact .inl rfl
  · by_cases hoff : offset = flagsOffset
    · exact .inr ⟨by simpa using hl, hoff⟩
    · left
      unfold State.regStore
      rw [if_neg hl, if_neg hoff]
      split_ifs <;> rfl

/-- R283 (P4), R29: of the host's actions only an unlocked write to FLAGS touches the mark. -/
theorem runHostOp_flagsChosen {op : HostOp} {s t : State} (h : runHostOp op s = .next t) :
    t.flagsChosen = s.flagsChosen ∨ s.locked = false ∧ ∃ v, op = .regWrite flagsOffset v := by
  cases op with
  | regWrite offset v =>
    obtain ⟨-, ⟨-, hctrl⟩ | ⟨-, rfl⟩⟩ := hostRegWrite_next h
    · exact .inl (ctrlWrite_flagsChosen hctrl)
    · refine (s.regStore_flagsChosen offset v).imp_right ?_
      rintro ⟨hl, rfl⟩
      exact ⟨hl, v, rfl⟩
  | regRead offset =>
    obtain ⟨-, rfl⟩ := hostRegRead_next h
    exact .inl rfl
  | narrowAccess offset bytes => cases h
  | bind id buffer =>
    obtain ⟨-, -, rfl⟩ := hostBind_next h
    exact .inl (by rw [State.setSpace_frame])
  | readElem id i =>
    obtain ⟨-, -, rfl⟩ := hostReadElem_next h
    exact .inl rfl
  | writeElem id i v =>
    obtain ⟨-, -, rfl⟩ := hostWriteElem_next h
    exact .inl (by rw [State.pokeElem_frame])
  | dec quantType lit tag outer lastdim => cases h; exact .inl rfl
  | wait => cases h; exact .inl rfl
  | convert map v => rw [(hostConvert_next h).1]; exact .inl rfl
  | collect map v => rw [hostCollect_next h]; exact .inl rfl
  | insert map name w z stage =>
    obtain ⟨-, e, -⟩ := hostInsert_next h
    exact .inl (by rw [e])

theorem hostTurn_flagsChosen {s t : State} (h : hostTurn s = .next t) :
    t.flagsChosen = s.flagsChosen ∨ s.locked = false ∧ ∃ v rest, s.prog = .regWrite flagsOffset v :: rest := by
  rcases hostTurn_cases s with ⟨e, -⟩ | ⟨op, rest, hprog, -, e⟩ <;> rw [e] at h
  · cases h
    exact .inl rfl
  · refine (runHostOp_flagsChosen h).imp_right ?_
    rintro ⟨hl, v, rfl⟩
    exact ⟨hl, v, rest, hprog⟩

/-- The engine never sets the mark: CHECK takes it, and the other steps keep it. -/
theorem EngineMove.flagsChosen_eq_false {s t : State} (h : EngineMove s t) (hs : s.flagsChosen = false) :
    t.flagsChosen = false := by
  by_cases hf : s.fsm = .check
  · exact h.takes_flagsWrite hf
  · obtain ⟨-, -, -, -, hflags⟩ := h.job_eq hf
    exact hflags.trans hs

/-- R283 (P4), R29: a step that sets the mark is the host's unlocked write to FLAGS. -/
theorem step_sets_flagsChosen {s t : State} (h : step s = .next t) (hs : s.flagsChosen = false)
    (ht : t.flagsChosen = true) : s.locked = false ∧ ∃ v rest, s.prog = .regWrite flagsOffset v :: rest := by
  obtain ⟨turn, ts, e, -⟩ := step_eq_runTurn s
  rw [e] at h
  cases turn with
  | host =>
    rcases hostTurn_flagsChosen h with hkept | hwrite
    · exact absurd (hs.symm.trans (hkept.symm.trans ht)) Bool.false_ne_true
    · exact hwrite
  | engine => exact absurd (((engineTurn_next h).flagsChosen_eq_false hs).symm.trans ht) Bool.false_ne_true
  | reset => cases h; cases ht
  | resetInStore k =>
    obtain ⟨u, rfl⟩ := resetInStep_next h
    cases ht

/-- Settles O60: the mark through CHECK, a reset, the two commands, and any step. -/
theorem flagsWriteServesOneJob : Obligations.FlagsWriteServesOneJob := by
  refine ⟨fun s t hf h => (engineTurn_next h).takes_flagsWrite hf,
    fun s t hf hq h ht => (engineTurn_next h).flagsChosen_of_launch hf hq ht, State.resetEvent_flagsChosen,
    fun a r s t h => ?_, fun s t h hs ht => step_sets_flagsChosen h hs ht⟩
  rcases h with hstart | hack
  · exact execStart_flagsChosen (r := r) hstart
  · exact execAck_flagsChosen (r := r) hack

/-! ## The spaces of a running job -/

/-- R33, R285: no move of the host touches a space while BUSY. -/
theorem HostMove.spaces_of_busy {s t : State} (h : HostMove s t) (hb : s.busy = true) :
    t.srcSpace = s.srcSpace ∧ t.wSpace = s.wSpace ∧ t.sSpace = s.sSpace ∧ t.bSpace = s.bSpace := by
  cases h with
  | regStore => rw [State.regStore_frame]; exact ⟨rfl, rfl, rfl, rfl⟩
  | bind hidle | writeElem hidle => exact absurd (hidle.symm.trans hb) Bool.false_ne_true
  | lists | acknowledge | start | acknowledgeStart | insert => exact ⟨rfl, rfl, rfl, rfl⟩

/-- Settles O42: each access to a space tests BUSY first, and the moves that are left leave the spaces. -/
theorem spacesAreUntouchableWhileBusy : Obligations.SpacesAreUntouchableWhileBusy := by
  refine ⟨fun s id i v buf hb => ⟨if_pos hb, if_pos hb, if_pos hb⟩, fun s map name w z stage hb => if_pos hb,
    fun s t hb h => ?_⟩
  obtain ⟨rest, hmove⟩ := hostTurn_next h
  exact hmove.spaces_of_busy hb

end Sys2Proof.Machine
end
